-- ==== Sys2Proof/Word.lean ====
section
/-! DEFINITION. The word types of the QT core and the one reduction to 16 bits that its rules use
(spec/00_scope.md R4 and R6). -/

namespace Sys2Proof

/-- A 16-bit unsigned value: every register but `F`, every cell of `CACHE`, `VS`, `AS` and `PORT`,
every index, and the bus value (R4). -/
abbrev Word := BitVec 16

/-- One ROM cell: 32 bits, of which 24 are significant (R4, R46). -/
abbrev RomWord := BitVec 32

/-- The 7-bit opcode field (R4). -/
abbrev Opcode := BitVec 7

/-- One byte of a binary image (R57); no memory of the core is seen in bytes (R35). -/
abbrev Byte := BitVec 8

/-- `wrap16(n) = n mod 65536` with the mathematical modulus, so a negative `n` lands in 0..65535 (R6). -/
abbrev wrap16 (n : Int) : Word := BitVec.ofInt 16 n

end Sys2Proof
end

