-- ==== Sys2Proof/Config.lean ====
section
/-! DEFINITION. What an implementation fixes: the sizes of spec/00_scope.md R4, and the named parameters of R5 with the
constraints the spec puts on their numbers (WellFormed.lean has those on the opcode numbering). A machine's parameters
stand in its State (notes/assumptions/29.md); their defaults are in Machine/Params.lean. The model needs no free value:
every point the source leaves open is decided by the spec (spec/92_eei_decisions.md,
spec/93_implementation_defined.md). -/

namespace Sys2Proof.Config

/-- Cells of each of the five address spaces (R4, R28). -/
def spaceCells : Nat := 65536

/-- Slots of the dispatch table (R4, R63). -/
def dispatchSlots : Nat := 128

/-- Mnemonics of the source's instruction table (R5, R53). -/
def mnemonicCount : Nat := 34

/-- The two values the parameter `PUSH_SOURCE` may take (R5, R81, decision D5). -/
inductive PushSource where
  | acc
  | bus
  deriving DecidableEq, Repr

/-- The four parameters of R5. -/
structure Params where
  /-- `OPCODE_MAP`, as the opcode numbers of the mnemonics in the order of the source's table (R52, R53). -/
  opcodeNumbers : Vector Opcode mnemonicCount
  /-- `TRAP_EXIT_CODE`: the exit code of the unknown-opcode trap. -/
  trapExitCode : Int
  /-- `DIVZERO_EXIT_CODE`: the exit code of `div` and `mod` with a zero divisor. -/
  divZeroExitCode : Int
  /-- `PUSH_SOURCE`: the value `push` writes. -/
  pushSource : PushSource
  deriving DecidableEq, Repr

/-- R5's constraint on `TRAP_EXIT_CODE`: distinct from 0 and 128. -/
def Params.trapCodeOk (p : Params) : Bool := p.trapExitCode != 0 && p.trapExitCode != 128

/-- R5's constraint on `DIVZERO_EXIT_CODE`: distinct from 0 and 128, from `TRAP_EXIT_CODE`, and from every
value `int` can produce (0..65535). -/
def Params.divZeroCodeOk (p : Params) : Bool :=
  p.divZeroExitCode != 0 && p.divZeroExitCode != 128 && p.divZeroExitCode != p.trapExitCode
    && !(decide (0 ≤ p.divZeroExitCode) && decide (p.divZeroExitCode ≤ 65535))

end Sys2Proof.Config
end

