-- ==== Sys2Proof/Syntax.lean ====
section
/-! DEFINITION. The syntax of QT programs at the level of ROM words (spec/00_scope.md R10): the operand, the 34
mnemonics of spec/30_encoding.md R53 in table order, and one instruction constructor per mnemonic. Every
instruction has the one format `QT24` (R46), so every constructor carries the same operand, also where the
handler ignores it (R51): its `M` and `V` are bits of the word. -/

namespace Sys2Proof

/-- The operand of an instruction, from the fields `M` and `V` (R46, R50). -/
inductive Operand where
  /-- `M = 0`: the bus value is `V` itself. -/
  | immediate (v : Word)
  /-- `M = 1`: the bus value is the cache cell `V` names. -/
  | indirect (v : Word)
  deriving DecidableEq, Repr

namespace Operand

/-- The memory-indirection flag `M` (R46). -/
def flag : Operand → Bool
  | .immediate _ => false
  | .indirect _ => true

/-- The value field `V` (R46). -/
def value : Operand → Word
  | .immediate v => v
  | .indirect v => v

/-- The operand the fields `M` and `V` stand for (R50). -/
def ofFields (m : Bool) (v : Word) : Operand :=
  match m with
  | false => .immediate v
  | true => .indirect v

end Operand

/-- The 34 mnemonics of the source's instruction table (R53). `ret` is the source's `return`, a word Lean keeps
for itself. -/
inductive Mnemonic where
  | load
  | store
  | loadp
  | loadpr
  | storep
  | tapr
  | push
  | pop
  | call
  | ret
  | jump
  | jumpc
  | clf
  | and
  | or
  | xor
  | lsl
  | lsr
  | rol
  | ror
  | comp
  | add
  | sub
  | addc
  | subc
  | inc
  | dec
  | mul
  | div
  | mod
  | portw
  | portr
  | int
  | halt
  deriving DecidableEq, Repr

/-- The mnemonics in the order of the source's table (R53). -/
def Mnemonic.all : List Mnemonic :=
  [.load, .store, .loadp, .loadpr, .storep, .tapr, .push, .pop, .call] ++
  [.ret, .jump, .jumpc, .clf, .and, .or, .xor, .lsl, .lsr] ++
  [.rol, .ror, .comp, .add, .sub, .addc, .subc, .inc, .dec] ++
  [.mul, .div, .mod, .portw, .portr, .int, .halt]

/-- An instruction: one constructor per row of spec/opcode_table.json. -/
inductive Instr where
  /-- `load`: copy the bus value into `ACC` (R75). -/
  | load (o : Operand)
  /-- `store`: write `ACC` to the cache cell the bus value names (R76). -/
  | store (o : Operand)
  /-- `loadp`: load the cache cell `ACC` points to (R77). -/
  | loadp (o : Operand)
  /-- `loadpr`: load the bus value into `PR` (R78). -/
  | loadpr (o : Operand)
  /-- `storep`: write `ACC` to the cache cell `PR` names (R79). -/
  | storep (o : Operand)
  /-- `tapr`: copy `ACC` into `PR` (R80). -/
  | tapr (o : Operand)
  /-- `push`: push onto the value stack (R81). -/
  | push (o : Operand)
  /-- `pop`: pop from the value stack into `ACC` (R82). -/
  | pop (o : Operand)
  /-- `call`: call a subroutine at the bus value (R83). -/
  | call (o : Operand)
  /-- `return`: return from a subroutine (R84). -/
  | ret (o : Operand)
  /-- `jump`: jump to the bus value (R85). -/
  | jump (o : Operand)
  /-- `jumpc`: jump to `PR` if a flag the bus mask selects is set (R86). -/
  | jumpc (o : Operand)
  /-- `clf`: clear the flag register (R88). -/
  | clf (o : Operand)
  /-- `and`: bitwise AND (R89). -/
  | and (o : Operand)
  /-- `or`: bitwise OR (R90). -/
  | or (o : Operand)
  /-- `xor`: bitwise XOR (R91). -/
  | xor (o : Operand)
  /-- `lsl`: logical shift left (R92). -/
  | lsl (o : Operand)
  /-- `lsr`: logical shift right (R93). -/
  | lsr (o : Operand)
  /-- `rol`: rotate left (R94). -/
  | rol (o : Operand)
  /-- `ror`: rotate right (R95). -/
  | ror (o : Operand)
  /-- `comp`: unsigned compare (R96). -/
  | comp (o : Operand)
  /-- `add`: add (R97). -/
  | add (o : Operand)
  /-- `sub`: subtract (R98). -/
  | sub (o : Operand)
  /-- `addc`: add with carry (R99). -/
  | addc (o : Operand)
  /-- `subc`: subtract with borrow (R100). -/
  | subc (o : Operand)
  /-- `inc`: increment `ACC` (R101). -/
  | inc (o : Operand)
  /-- `dec`: decrement `ACC` (R102). -/
  | dec (o : Operand)
  /-- `mul`: multiply (R103). -/
  | mul (o : Operand)
  /-- `div`: unsigned division (R104). -/
  | div (o : Operand)
  /-- `mod`: unsigned remainder (R105). -/
  | mod (o : Operand)
  /-- `portw`: write `ACC` to a port (R107). -/
  | portw (o : Operand)
  /-- `portr`: read a port into `ACC` (R108). -/
  | portr (o : Operand)
  /-- `int`: stop with the bus value as exit code (R109). -/
  | int (o : Operand)
  /-- `halt`: stop with exit code 0 (R110). -/
  | halt (o : Operand)
  deriving DecidableEq, Repr

namespace Instr

/-- The mnemonic of an instruction. -/
def mnemonic : Instr → Mnemonic
  | .load _ => .load
  | .store _ => .store
  | .loadp _ => .loadp
  | .loadpr _ => .loadpr
  | .storep _ => .storep
  | .tapr _ => .tapr
  | .push _ => .push
  | .pop _ => .pop
  | .call _ => .call
  | .ret _ => .ret
  | .jump _ => .jump
  | .jumpc _ => .jumpc
  | .clf _ => .clf
  | .and _ => .and
  | .or _ => .or
  | .xor _ => .xor
  | .lsl _ => .lsl
  | .lsr _ => .lsr
  | .rol _ => .rol
  | .ror _ => .ror
  | .comp _ => .comp
  | .add _ => .add
  | .sub _ => .sub
  | .addc _ => .addc
  | .subc _ => .subc
  | .inc _ => .inc
  | .dec _ => .dec
  | .mul _ => .mul
  | .div _ => .div
  | .mod _ => .mod
  | .portw _ => .portw
  | .portr _ => .portr
  | .int _ => .int
  | .halt _ => .halt

/-- The operand of an instruction. -/
def operand : Instr → Operand
  | .load o => o
  | .store o => o
  | .loadp o => o
  | .loadpr o => o
  | .storep o => o
  | .tapr o => o
  | .push o => o
  | .pop o => o
  | .call o => o
  | .ret o => o
  | .jump o => o
  | .jumpc o => o
  | .clf o => o
  | .and o => o
  | .or o => o
  | .xor o => o
  | .lsl o => o
  | .lsr o => o
  | .rol o => o
  | .ror o => o
  | .comp o => o
  | .add o => o
  | .sub o => o
  | .addc o => o
  | .subc o => o
  | .inc o => o
  | .dec o => o
  | .mul o => o
  | .div o => o
  | .mod o => o
  | .portw o => o
  | .portr o => o
  | .int o => o
  | .halt o => o

/-- The instruction with a given mnemonic and operand. -/
def ofMnemonic : Mnemonic → Operand → Instr
  | .load, o => .load o
  | .store, o => .store o
  | .loadp, o => .loadp o
  | .loadpr, o => .loadpr o
  | .storep, o => .storep o
  | .tapr, o => .tapr o
  | .push, o => .push o
  | .pop, o => .pop o
  | .call, o => .call o
  | .ret, o => .ret o
  | .jump, o => .jump o
  | .jumpc, o => .jumpc o
  | .clf, o => .clf o
  | .and, o => .and o
  | .or, o => .or o
  | .xor, o => .xor o
  | .lsl, o => .lsl o
  | .lsr, o => .lsr o
  | .rol, o => .rol o
  | .ror, o => .ror o
  | .comp, o => .comp o
  | .add, o => .add o
  | .sub, o => .sub o
  | .addc, o => .addc o
  | .subc, o => .subc o
  | .inc, o => .inc o
  | .dec, o => .dec o
  | .mul, o => .mul o
  | .div, o => .div o
  | .mod, o => .mod o
  | .portw, o => .portw o
  | .portr, o => .portr o
  | .int, o => .int o
  | .halt, o => .halt o

end Instr

end Sys2Proof
end

