-- ==== Sys2Proof/WellFormed.lean ====
section
/-! DEFINITION. The checks on what is written down from outside: a triple of numbers offered to the encoder
(spec/30_encoding.md R48, R49), an instruction, an opcode numbering (R52), and a set of parameters (spec/00_scope.md R5). -/

namespace Sys2Proof

/-- A triple of plain numbers as the encoder takes it, before anyone has checked it (R48). -/
structure Triple where
  m : Nat
  v : Nat
  op : Nat
  deriving DecidableEq, Repr

namespace Triple

/-- `M ∈ {0,1}` (R49). -/
def flagOk (t : Triple) : Bool := decide (t.m < 2)

/-- `V ∈ u16` (R49). -/
def valueOk (t : Triple) : Bool := decide (t.v < 65536)

/-- `OP ∈ 0..127` (R49). -/
def opcodeOk (t : Triple) : Bool := decide (t.op < 128)

/-- A valid triple of R49. -/
def wellFormed (t : Triple) : Bool := t.flagOk && t.valueOk && t.opcodeOk

end Triple

/-- The operand's fields as numbers, beside an opcode number. -/
def Operand.triple (o : Operand) (op : Nat) : Triple := ⟨o.flag.toNat, o.value.toNat, op⟩

/-- An operand is well formed when its two fields fit the word. The type already says so. -/
def Operand.wellFormed (o : Operand) : Bool := (o.triple 0).flagOk && (o.triple 0).valueOk

/-- An instruction is well formed when its operand is: no value of `M` or `V` makes a word illegal (R55). -/
def Instr.wellFormed (i : Instr) : Bool := i.operand.wellFormed

/-- The parameter `OPCODE_MAP`: the opcode number of each mnemonic, in 0..127 by its type (R52). -/
abbrev OpcodeMap := Mnemonic → Opcode

theorem Mnemonic.ctorIdx_lt (n : Mnemonic) : n.ctorIdx < Config.mnemonicCount := by cases n <;> decide

namespace OpcodeMap

/-- No two mnemonics share a value (R52). -/
def injectiveOk (f : OpcodeMap) : Bool := decide ((Mnemonic.all.map f).Nodup)

/-- 63 is not a value (R52). -/
def leaves63 (f : OpcodeMap) : Bool := Mnemonic.all.all fun n => f n != 63#7

/-- The constraints R52 puts on `OPCODE_MAP`. -/
def admissible (f : OpcodeMap) : Bool := f.injectiveOk && f.leaves63

/-- The numbering whose numbers are listed in the order of the source's table, which is the order of the constructors
of `Mnemonic`. -/
def ofNumbers (v : Vector Opcode Config.mnemonicCount) : OpcodeMap := fun n => v[n.ctorIdx]'(Mnemonic.ctorIdx_lt n)

/-- The numbers of a numbering, listed in the order of the source's table. -/
def numbers (f : OpcodeMap) : Vector Opcode Config.mnemonicCount := ⟨(Mnemonic.all.map f).toArray, rfl⟩

end OpcodeMap

/-- The parameter `OPCODE_MAP` as a numbering. -/
def Config.Params.opcodeMap (p : Config.Params) : OpcodeMap := OpcodeMap.ofNumbers p.opcodeNumbers

/-- The parameters meet every constraint of R5. -/
def Config.Params.wellFormed (p : Config.Params) : Bool :=
  p.opcodeMap.admissible && p.trapCodeOk && p.divZeroCodeOk

end Sys2Proof
end

