-- ==== Sys2Proof/Decode.lean ====
section
/-! DEFINITION. Decoding and encoding of the 32-bit instruction word (spec/30_encoding.md R46 to R56), and the
default opcode numbering of R53. Decoding the fields is total on any word (R47). Finding the instruction is total
too: a word either is an instruction or is named as one whose opcode has no handler (R54). -/

namespace Sys2Proof

/-- The three fields of the format `QT24` (R46). -/
structure Fields where
  m : Bool
  v : Word
  op : Opcode
  deriving DecidableEq, Repr

/-- `decode(w)` of R47: `M = w[23]`, `V = w[22:7]`, `OP = w[6:0]`; bits 31..24 play no part. -/
def decodeFields (w : RomWord) : Fields where
  m := w.getLsbD 23
  v := w.extractLsb' 7 16
  op := w.extractLsb' 0 7

/-- `encode(M, V, OP)` of R48 on plain numbers, with no masking of any argument. -/
def encodeRaw (m v op : Nat) : Nat := (m <<< 23) ||| (v <<< 7) ||| op

/-- `encode` as a ROM cell holds it (R48). -/
def encodeTriple (t : Triple) : RomWord := BitVec.ofNat 32 (encodeRaw t.m t.v t.op)

/-- The default `OPCODE_MAP` (R53, decision D1): 1 to 34 in table order. DESIGN CHOICE of the spec, not the source's
(notes/assumptions/1.md). -/
def defaultOpcodeMap : OpcodeMap
  | .load => 1
  | .store => 2
  | .loadp => 3
  | .loadpr => 4
  | .storep => 5
  | .tapr => 6
  | .push => 7
  | .pop => 8
  | .call => 9
  | .ret => 10
  | .jump => 11
  | .jumpc => 12
  | .clf => 13
  | .and => 14
  | .or => 15
  | .xor => 16
  | .lsl => 17
  | .lsr => 18
  | .rol => 19
  | .ror => 20
  | .comp => 21
  | .add => 22
  | .sub => 23
  | .addc => 24
  | .subc => 25
  | .inc => 26
  | .dec => 27
  | .mul => 28
  | .div => 29
  | .mod => 30
  | .portw => 31
  | .portr => 32
  | .int => 33
  | .halt => 34

/-- What a 7-bit opcode selects: the mnemonic whose number it is, or nothing, which is the trap handler
(R52, R54; spec/40_dispatch_engine.md R63). -/
def dispatchSlot (f : OpcodeMap) (op : Opcode) : Option Mnemonic := Mnemonic.all.find? fun n => f n == op

/-- The outcome of decoding a word. -/
inductive Decoded where
  /-- An instruction of the table. -/
  | instr (i : Instr)
  /-- The opcode has no handler: dispatch goes to the trap handler (R54). -/
  | unknownOpcode (op : Opcode)
  deriving DecidableEq, Repr

/-- Decoding under an opcode numbering (R47, R52). -/
def decodeWith (f : OpcodeMap) (w : RomWord) : Decoded :=
  let d := decodeFields w
  match dispatchSlot f d.op with
  | some n => .instr (Instr.ofMnemonic n (Operand.ofFields d.m d.v))
  | none => .unknownOpcode d.op

/-- Decoding under the default numbering (R53). -/
def decode (w : RomWord) : Decoded := decodeWith defaultOpcodeMap w

/-- The instruction a decoding outcome holds. -/
def Decoded.toOption : Decoded → Option Instr
  | .instr i => some i
  | .unknownOpcode _ => none

/-- The word of an instruction under an opcode numbering (R46, R48, R62). -/
def encodeWith (f : OpcodeMap) (i : Instr) : RomWord :=
  encodeTriple (i.operand.triple (f i.mnemonic).toNat)

/-- The word of an instruction under the default numbering (R53). -/
def encode (i : Instr) : RomWord := encodeWith defaultOpcodeMap i

/-- The instruction the decoder reads from the low `nbits` bits of `w`, the bits above them zero, numbered as
spec/opcode_table.json numbers them. A ROM cell is one 32-bit word, so no byte order arises
(spec/20_memory.md R35). -/
def decodeTableWord (nbits w : Nat) : Option Instr :=
  (decode (BitVec.ofNat 32 (w % 2 ^ nbits))).toOption

end Sys2Proof
end

