-- ==== Sys2Proof/Machine/Params.lean ====
section
/-! DEFINITION. The defaults of the named parameters of spec/00_scope.md R5. They are only where `State.reset` starts
from: the machine reads its parameters from its State (notes/assumptions/29.md). -/

namespace Sys2Proof.Machine

/-- The defaults of R5 (decisions D1, D2, D3, D5; DESIGN CHOICE of the spec, notes/assumptions/1.md to 4.md). -/
def defaultParams : Config.Params where
  opcodeNumbers := defaultOpcodeMap.numbers
  trapExitCode := -1
  divZeroExitCode := -2
  pushSource := .acc

end Sys2Proof.Machine
end

