-- ==== Sys2Proof/Machine/State.lean ====
section
/-! DEFINITION. The state of the QT core as plain data (spec/10_state.md, spec/20_memory.md R28), the host's pending
moves (spec/60_exceptions.md R121, R122), the parameters of the machine (spec/00_scope.md R5), the state after reset
(R26) and the reasons a step can stop. -/

namespace Sys2Proof.Machine

/-- An address space of `w`-bit cells: the cells that differ from what an unlisted cell reads as, in rising order
of index. The canonical form is `Memory.wf` of Machine/Ops.lean. The unit is the whole cell: no space has a byte
view (spec/20_memory.md R35). -/
abbrev Memory (w : Nat) := List (Nat × BitVec w)

/-- The flag register `F` (R19). Bits 15..6 are hardwired to zero, so six Booleans are all of it (R20); its
numeric value is `Flags.toWord` of Machine/Flags.lean. -/
structure Flags where
  /-- carry, bit 0 -/
  c : Bool
  /-- parity, bit 1 -/
  p : Bool
  /-- zero, bit 2 -/
  z : Bool
  /-- sign, bit 3 -/
  s : Bool
  /-- overflow, bit 4 -/
  v : Bool
  /-- underflow, bit 5 -/
  u : Bool
  deriving DecidableEq, Repr

/-- `F = 0`. -/
def Flags.zero : Flags := ⟨false, false, false, false, false, false⟩

/-- Where the core stands with respect to the one image import it may see after a reset (spec/30_encoding.md R58
to R60, spec/70_reset_and_hazards.md R132). -/
inductive ImageStatus where
  /-- Nothing has been imported since the reset. -/
  | blank
  /-- A run has begun with nothing imported: the boot order has passed the import, which is refused until the next
  reset (R132, notes/assumptions/15.md). -/
  | closed
  /-- An image has been imported; a second import is refused (R59, decision D21). -/
  | loaded
  /-- An import was a load error; no run may start until the next reset (R132, decisions D4, D20). -/
  | failed
  deriving DecidableEq, Repr

/-- The host operations of R121 that change core state. The reading ones stand in Machine/HostBoundary.lean. -/
inductive HostMove where
  /-- `initialize_memory`: reset (R131). -/
  | initializeMemory
  /-- `import_code(image)`: load ROM from a binary image (R57 to R60). -/
  | importCode (image : List Byte)
  /-- `run`: start a run (R64). -/
  | run
  /-- Write a `PORT` cell (R122, decision D11). -/
  | writePort (p v : Word)
  deriving DecidableEq, Repr

/-- Everything the spec gives the core, the host's pending moves, and the machine's parameters. -/
structure State where
  /-- `ACC` (R13) -/
  acc : Word
  /-- `PR` (R14) -/
  pr : Word
  /-- `PC` (R15) -/
  pc : Word
  /-- `SP` (R16) -/
  sp : Word
  /-- `ASP` (R17) -/
  asp : Word
  /-- `F` (R19) -/
  flags : Flags
  /-- `ROM` (R30) -/
  rom : Memory 32
  /-- `CACHE` (R31) -/
  cache : Memory 16
  /-- `VS` (R32) -/
  valueStack : Memory 16
  /-- `AS` (R33) -/
  addressStack : Memory 16
  /-- `PORT` (R34) -/
  ports : Memory 16
  /-- `running` (R23) -/
  running : Bool
  /-- `exit_code` (R23) -/
  exitCode : Int
  /-- `instructions_executed` (R23) -/
  instructionsExecuted : Nat
  /-- the import's status (R58, R59, R132) -/
  imageStatus : ImageStatus
  /-- The MODEL's own field: the moves the host is going to make, in order. While no run is in progress, each
  step makes the first of them. It is a free choice: a claim holds for every list (R122, notes/assumptions/12.md). -/
  hostMoves : List HostMove
  /-- The parameters of R5, fixed for a machine: no step changes them, and a claim holds for every value of them. They
  stand here because the step takes nothing but the state (notes/assumptions/29.md). -/
  params : Config.Params
  deriving DecidableEq, Repr

/-- The reasons a step can fault: none. Every word decodes, every opcode has a handler, every index is in range, so
`Step` is total (spec/40_dispatch_engine.md R73, spec/60_exceptions.md R115). The two exceptions of the
architecture are next states (R113, R114). -/
inductive Fault where
  deriving DecidableEq, Repr

/-- The reasons a step can be refused. -/
inductive Refusal where
  /-- Raised by an arm of `exec` for an instruction that has no meaning yet. No arm raises it in this model. Safe. -/
  | notModelled (mnemonic : String)
  deriving DecidableEq, Repr

/-- The state right after `initialize_memory` (R26, R131) of a machine with the parameters `p`. `hostMoves` is the
model's own field, and its value here is a DESIGN CHOICE (notes/assumptions/12.md). -/
def State.resetWith (p : Config.Params) : State where
  acc := 0
  pr := 0
  pc := 0
  sp := 0
  asp := 0
  flags := Flags.zero
  rom := []
  cache := []
  valueStack := []
  addressStack := []
  ports := []
  running := false
  exitCode := 0
  instructionsExecuted := 0
  imageStatus := .blank
  hostMoves := []
  params := p

/-- The state right after `initialize_memory` of the machine with the spec's default parameters (R5). -/
def State.reset : State := State.resetWith defaultParams

end Sys2Proof.Machine
end

