-- ==== Sys2Proof/Machine/Ops.lean ====
section
/-! DEFINITION. The named operations over the address spaces and the registers, the stop and the two exceptions
(spec/20_memory.md, spec/60_exceptions.md R111 to R114), and the start of a run, which is the only way back from a
stop (R119). -/

namespace Sys2Proof.Machine

/-! ## Address spaces -/

namespace Memory

variable {w : Nat}

/-- What a cell that is not listed reads as: zero, the reset contents of every space (R26). -/
def unlisted : BitVec w := 0#w

/-- The contents of the cell with index `a`. -/
def get : Memory w → Nat → BitVec w
  | [], _ => unlisted
  | c :: m, a => if c.1 = a then c.2 else get m a

/-- The memory with the cell `a` back at what an unlisted cell reads as. -/
def erase : Memory w → Nat → Memory w
  | [], _ => []
  | c :: m, a => if c.1 = a then erase m a else c :: erase m a

/-- The memory with an entry placed before the first entry of a greater index. -/
def place : Memory w → Nat → BitVec w → Memory w
  | [], a, v => [(a, v)]
  | c :: m, a, v => if a < c.1 then (a, v) :: c :: m else c :: place m a v

/-- The memory with the cell `a` holding `v`, in canonical form again. -/
def set (m : Memory w) (a : Nat) (v : BitVec w) : Memory w :=
  if v = unlisted then erase m a else place (erase m a) a v

/-- `MemRead(S[a], 1)`: every u16 index is in range (R29), one whole cell is moved (R35). -/
def read (m : Memory w) (a : Word) : BitVec w := get m a.toNat

/-- `MemWrite(S[a], 1, v)`: exactly the one cell changes (R37). -/
def write (m : Memory w) (a : Word) (v : BitVec w) : Memory w := set m a.toNat v

/-- The canonical form from index `lo` on: indices strictly rising and inside the space, no entry equal to what an
unlisted cell reads as. -/
def wfFrom : Nat → Memory w → Bool
  | _, [] => true
  | lo, c :: m =>
    decide (lo ≤ c.1) && decide (c.1 < Config.spaceCells) && decide (c.2 ≠ unlisted) && wfFrom (c.1 + 1) m

/-- The canonical form of a memory: equal contents are equal data. -/
def wf (m : Memory w) : Bool := wfFrom 0 m

/-- The whole space as a flat sequence, cell 0 first (R128). -/
def snapshot (m : Memory w) : List (BitVec w) := (List.range Config.spaceCells).map (get m)

end Memory

namespace State

/-! ## Registers -/

/-- `ACC <- v` -/
def setAcc (s : State) (v : Word) : State := { s with acc := v }

/-- `PR <- v` -/
def setPr (s : State) (v : Word) : State := { s with pr := v }

/-- `PC <- v` -/
def setPc (s : State) (v : Word) : State := { s with pc := v }

/-- `SP <- v` -/
def setSp (s : State) (v : Word) : State := { s with sp := v }

/-- `ASP <- v` -/
def setAsp (s : State) (v : Word) : State := { s with asp := v }

/-- `F <- f` -/
def setFlags (s : State) (f : Flags) : State := { s with flags := f }

/-- `F.C <- b` -/
def setCarry (s : State) (b : Bool) : State := s.setFlags { s.flags with c := b }

/-- `F.V <- b` -/
def setOverflow (s : State) (b : Bool) : State := s.setFlags { s.flags with v := b }

/-- `F.U <- b` -/
def setUnderflow (s : State) (b : Bool) : State := s.setFlags { s.flags with u := b }

/-! ## Cells -/

/-- `MemWrite(CACHE[a], 1, v)` (R31) -/
def writeCache (s : State) (a v : Word) : State := { s with cache := s.cache.write a v }

/-- `MemWrite(VS[a], 1, v)` (R32) -/
def writeValueStack (s : State) (a v : Word) : State := { s with valueStack := s.valueStack.write a v }

/-- `MemWrite(AS[a], 1, v)` (R33) -/
def writeAddressStack (s : State) (a v : Word) : State := { s with addressStack := s.addressStack.write a v }

/-- `MemWrite(PORT[a], 1, v)` (R34) -/
def writePort (s : State) (a v : Word) : State := { s with ports := s.ports.write a v }

/-- `MemWrite(ROM[a], 1, w)`: the image import only (R30, R59). -/
def writeRom (s : State) (a : Word) (w : RomWord) : State := { s with rom := s.rom.write a w }

/-! ## The stacks -/

/-- Write the value stack at `SP`, then increment `SP`; no guard, both wrap (R16, R81). -/
def pushValue (s : State) (v : Word) : State := (s.writeValueStack s.sp v).setSp (s.sp + 1)

/-- Decrement `SP`, then hand over the cell it names; the cell is not cleared (R16, R82). -/
def popValue (s : State) : Word × State :=
  let t := s.setSp (s.sp - 1)
  (t.valueStack.read t.sp, t)

/-- Write the address stack at `ASP`, then increment `ASP` (R17, R83). -/
def pushAddress (s : State) (v : Word) : State := (s.writeAddressStack s.asp v).setAsp (s.asp + 1)

/-- Decrement `ASP`, then hand over the cell it names (R17, R84). -/
def popAddress (s : State) : Word × State :=
  let t := s.setAsp (s.asp - 1)
  (t.addressStack.read t.asp, t)

/-! ## Control transfer -/

/-- Aim the uniform advance at `target`: `PC <- wrap16(target - 1)` (R15, R69). -/
def aimPc (s : State) (target : Word) : State := s.setPc (target - 1)

/-! ## Fetch -/

/-- `MemRead(ROM[PC], 1)` (R66). -/
def fetch (s : State) : RomWord := s.rom.read s.pc

/-! ## Stops and exceptions -/

/-- `stop(code)` (R111). It does not end the step. -/
def stop (s : State) (code : Int) : State := { s with running := false, exitCode := code }

end State

/-- The two synchronous exceptions; no other exists (R113 to R115). -/
inductive SyncException where
  | unknownOpcode
  | divideByZero
  deriving DecidableEq, Repr

/-- The exit code of each exception under the parameters `p` (R112). -/
def SyncException.exitCode (p : Config.Params) : SyncException → Int
  | .unknownOpcode => p.trapExitCode
  | .divideByZero => p.divZeroExitCode

/-- Taking an exception: a stop with the exception's code under the machine's parameters and nothing else. No register,
flag or cell is written, no pc is saved, no vector is followed (R113, R114, R118). -/
def State.takeException (s : State) (e : SyncException) : State := s.stop (e.exitCode s.params)

/-- The way back from a stop, and the start of every run: `running <- true`, `instructions_executed <- 0`; the next
fetch is at the current `PC` (R64, R119). -/
def State.startRun (s : State) : State := { s with running := true, instructionsExecuted := 0 }

end Sys2Proof.Machine
end

