-- ==== Sys2Proof/Machine/Flags.lean ====
section
/-! DEFINITION. The numeric value of `F`, every flag computation the spec gives, and the results that go with them
(spec/10_state.md R19 to R22, spec/40_dispatch_engine.md R68, spec/43_flags_logic_shift.md,
spec/44_arithmetic.md). Intermediate results are mathematical integers (R6). -/

namespace Sys2Proof.Machine

/-- The numeric value of `F`: the sum of `F.x × 2^bit` over the bits of R19 (R20). -/
def Flags.toWord (f : Flags) : Word :=
  BitVec.ofNat 16 (f.c.toNat + 2 * f.p.toNat + 4 * f.z.toNat + 8 * f.s.toNat + 16 * f.v.toNat + 32 * f.u.toNat)

/-- The test of `jumpc`: `(F & bus) != 0` (spec/42_control_transfer.md R86). -/
def Flags.selected (f : Flags) (mask : Word) : Bool := (f.toWord &&& mask) != 0#16

/-- `popcount(v)` (R6). -/
def popcount (v : Word) : Nat := ((List.range 16).filter fun i => v.getLsbD i).length

/-- `F.P <- popcount(ACC) mod 2` (R68). -/
def parityOf (v : Word) : Bool := popcount v % 2 == 1

/-- `F.Z <- bit(ACC == 0)` (R68). -/
def zeroOf (v : Word) : Bool := v == 0#16

/-- `F.S <- ACC[15]` (R68). -/
def signOf (v : Word) : Bool := v.getLsbD 15

/-- `refresh_PZS()`: three flags from the `ACC` the handler left; C, V and U are not touched (R68). -/
def State.refreshPZS (s : State) : State :=
  s.setFlags { s.flags with p := parityOf s.acc, z := zeroOf s.acc, s := signOf s.acc }

/-! ## Exact results of the arithmetic instructions -/

/-- A flag as the extra operand of `addc` and `subc`. -/
def carryIn (b : Bool) : Int := b.toNat

/-- `ACC + bus + carry` (R97, R99). -/
def exactSum (a b : Word) (c : Bool) : Int := (a.toNat : Int) + b.toNat + carryIn c

/-- `ACC - bus - carry` (R98, R100). -/
def exactDifference (a b : Word) (c : Bool) : Int := (a.toNat : Int) - b.toNat - carryIn c

/-- `ACC × bus` (R103). -/
def exactProduct (a b : Word) : Int := (a.toNat : Int) * b.toNat

/-- `bit(r > 65535)`: the carry out of an addition and the overflow of a product. -/
def above16 (r : Int) : Bool := decide (r > 65535)

/-- `bit(r < 0)`: the borrow into a subtraction. -/
def below0 (r : Int) : Bool := decide (r < 0)

/-- `F.C <- bit(r > 65535)`, `ACC <- wrap16(r)` for a sum `r`. -/
def State.putSum (s : State) (r : Int) : State := (s.setCarry (above16 r)).setAcc (wrap16 r)

/-- `F.C <- bit(r < 0)`, `ACC <- wrap16(r)` for a difference `r`. -/
def State.putDifference (s : State) (r : Int) : State := (s.setCarry (below0 r)).setAcc (wrap16 r)

/-- `F.V <- bit(p > 65535)`, `ACC <- wrap16(p)` for a product `p`. -/
def State.putProduct (s : State) (p : Int) : State := (s.setOverflow (above16 p)).setAcc (wrap16 p)

/-! ## Shifts, rotations and the comparison -/

/-- `wrap16(a << n)` for the whole count `n`; 16 or more gives 0 (R92, decision D8). -/
def shiftLeft (a : Word) (n : Nat) : Word := BitVec.ofNat 16 (a.toNat <<< n)

/-- `a >> n` for the whole count `n`; 16 or more gives 0 (R93, decision D8). -/
def shiftRight (a : Word) (n : Nat) : Word := BitVec.ofNat 16 (a.toNat >>> n)

/-- Rotation left by `n mod 16` (R94, decision D9). -/
def rotateLeft (a : Word) (n : Nat) : Word := shiftLeft a (n % 16) ||| shiftRight a (16 - n % 16)

/-- Rotation right by `n mod 16` (R95, decision D9). -/
def rotateRight (a : Word) (n : Nat) : Word := shiftRight a (n % 16) ||| shiftLeft a (16 - n % 16)

/-- The result of `comp`, unsigned: 65535 for less, 0 for equal, 1 for greater (R96). -/
def compareWords (a b : Word) : Word :=
  if a.toNat < b.toNat then 65535#16 else if a = b then 0#16 else 1#16

end Sys2Proof.Machine
end

