-- ==== Sys2Proof/Machine/Operands.lean ====
section
/-! DEFINITION. The operand forms: the bus value (spec/30_encoding.md R50) and the source of `push`
(spec/41_data_transfer.md R81). -/

namespace Sys2Proof.Machine

/-- The bus value: `V` itself, or the cache cell `V` names. One level of indirection, no sign extension, no side
effect (R50, R51; spec/20_memory.md R37). -/
def busValue (o : Operand) (s : State) : Word :=
  match o with
  | .immediate v => v
  | .indirect v => s.cache.read v

/-- What `push` writes under a choice of `PUSH_SOURCE` (R81, decision D5). -/
def pushOperand (src : Config.PushSource) (o : Operand) (s : State) : Word :=
  match src with
  | .acc => s.acc
  | .bus => busValue o s

end Sys2Proof.Machine
end

