-- ==== Sys2Proof/Machine/Arithmetic.lean ====
section
/-! DEFINITION. The arithmetic instructions (spec/44_arithmetic.md). -/

namespace Sys2Proof.Machine

/-- `add` (R97). -/
def execAdd (o : Operand) (s : State) : Host.Outcome State Fault Refusal :=
  .next (s.putSum (exactSum s.acc (busValue o s) false))

/-- `sub` (R98). -/
def execSub (o : Operand) (s : State) : Host.Outcome State Fault Refusal :=
  .next (s.putDifference (exactDifference s.acc (busValue o s) false))

/-- `addc` (R99). -/
def execAddc (o : Operand) (s : State) : Host.Outcome State Fault Refusal :=
  .next (s.putSum (exactSum s.acc (busValue o s) s.flags.c))

/-- `subc` (R100): `F.C` is read as a borrow (decision D7). -/
def execSubc (o : Operand) (s : State) : Host.Outcome State Fault Refusal :=
  .next (s.putDifference (exactDifference s.acc (busValue o s) s.flags.c))

/-- `inc` (R101); the bus value is ignored. -/
def execInc (_o : Operand) (s : State) : Host.Outcome State Fault Refusal :=
  .next (s.putSum (exactSum s.acc 1#16 false))

/-- `dec` (R102); the bus value is ignored. -/
def execDec (_o : Operand) (s : State) : Host.Outcome State Fault Refusal :=
  .next (s.putDifference (exactDifference s.acc 1#16 false))

/-- `mul` (R103). -/
def execMul (o : Operand) (s : State) : Host.Outcome State Fault Refusal :=
  .next (s.putProduct (exactProduct s.acc (busValue o s)))

/-- `div` (R104): a zero divisor raises `DivideByZero` and leaves `ACC` (decision D3). -/
def execDiv (o : Operand) (s : State) : Host.Outcome State Fault Refusal :=
  let d := busValue o s
  .next (if d = 0#16 then s.takeException .divideByZero
    else s.setAcc (BitVec.ofNat 16 (s.acc.toNat / d.toNat)))

/-- `mod` (R105): a zero divisor raises `DivideByZero` and leaves `ACC` (decision D3). -/
def execMod (o : Operand) (s : State) : Host.Outcome State Fault Refusal :=
  let d := busValue o s
  .next (if d = 0#16 then s.takeException .divideByZero
    else s.setAcc (BitVec.ofNat 16 (s.acc.toNat % d.toNat)))

end Sys2Proof.Machine
end

