-- ==== Sys2Proof/Machine/ControlTransfer.lean ====
section
/-! DEFINITION. The control transfer instructions (spec/42_control_transfer.md). Each leaves `PC` one below where
execution goes on, and the advance of the step adds the one back (spec/40_dispatch_engine.md R69). -/

namespace Sys2Proof.Machine

/-- `call` (R83): the address of the `call` itself is pushed. -/
def execCall (o : Operand) (s : State) : Host.Outcome State Fault Refusal :=
  .next ((s.pushAddress s.pc).aimPc (busValue o s))

/-- `return` (R84): the popped call site is written unchanged (spec/90_conflicts.md C4); the bus value is ignored. -/
def execRet (_o : Operand) (s : State) : Host.Outcome State Fault Refusal :=
  let (saved, t) := s.popAddress
  .next (t.setPc saved)

/-- `jump` (R85). -/
def execJump (o : Operand) (s : State) : Host.Outcome State Fault Refusal :=
  .next (s.aimPc (busValue o s))

/-- `jumpc` (R86): the bus value is a mask over `F`, the target is `PR`. -/
def execJumpc (o : Operand) (s : State) : Host.Outcome State Fault Refusal :=
  .next (if s.flags.selected (busValue o s) then s.aimPc s.pr else s)

end Sys2Proof.Machine
end

