-- ==== Sys2Proof/Machine/DataTransfer.lean ====
section
/-! DEFINITION. The data transfer instructions (spec/41_data_transfer.md). -/

namespace Sys2Proof.Machine

/-- `load` (R75). -/
def execLoad (o : Operand) (s : State) : Host.Outcome State Fault Refusal :=
  .next (s.setAcc (busValue o s))

/-- `store` (R76). With `M = 1` the cell that gives the address is read before the write (spec/20_memory.md R39). -/
def execStore (o : Operand) (s : State) : Host.Outcome State Fault Refusal :=
  .next (s.writeCache (busValue o s) s.acc)

/-- `loadp` (R77); the bus value is ignored. -/
def execLoadp (_o : Operand) (s : State) : Host.Outcome State Fault Refusal :=
  .next (s.setAcc (s.cache.read s.acc))

/-- `loadpr` (R78). -/
def execLoadpr (o : Operand) (s : State) : Host.Outcome State Fault Refusal :=
  .next (s.setPr (busValue o s))

/-- `storep` (R79); the bus value is ignored. -/
def execStorep (_o : Operand) (s : State) : Host.Outcome State Fault Refusal :=
  .next (s.writeCache s.pr s.acc)

/-- `tapr` (R80); the bus value is ignored. -/
def execTapr (_o : Operand) (s : State) : Host.Outcome State Fault Refusal :=
  .next (s.setPr s.acc)

/-- `push` (R81); what is pushed is the parameter `PUSH_SOURCE`. -/
def execPush (o : Operand) (s : State) : Host.Outcome State Fault Refusal :=
  .next (s.pushValue (pushOperand s.params.pushSource o s))

/-- `pop` (R82); the bus value is ignored. -/
def execPop (_o : Operand) (s : State) : Host.Outcome State Fault Refusal :=
  let (v, t) := s.popValue
  .next (t.setAcc v)

end Sys2Proof.Machine
end

