-- ==== Sys2Proof/Machine/FlagLogicShift.lean ====
section
/-! DEFINITION. The flag, logic, shift and compare instructions (spec/43_flags_logic_shift.md). -/

namespace Sys2Proof.Machine

/-- `clf` (R88): the handler clears all of `F`; the refresh that follows is the engine's (spec/90_conflicts.md C3). -/
def execClf (_o : Operand) (s : State) : Host.Outcome State Fault Refusal :=
  .next (s.setFlags Flags.zero)

/-- `and` (R89). -/
def execAnd (o : Operand) (s : State) : Host.Outcome State Fault Refusal :=
  .next (s.setAcc (s.acc &&& busValue o s))

/-- `or` (R90). -/
def execOr (o : Operand) (s : State) : Host.Outcome State Fault Refusal :=
  .next (s.setAcc (s.acc ||| busValue o s))

/-- `xor` (R91). -/
def execXor (o : Operand) (s : State) : Host.Outcome State Fault Refusal :=
  .next (s.setAcc (s.acc ^^^ busValue o s))

/-- `lsl` (R92): `F.V` takes the top bit before the shift, whatever the count. -/
def execLsl (o : Operand) (s : State) : Host.Outcome State Fault Refusal :=
  .next ((s.setOverflow (s.acc.getLsbD 15)).setAcc (shiftLeft s.acc (busValue o s).toNat))

/-- `lsr` (R93): `F.U` takes the bottom bit before the shift, whatever the count. -/
def execLsr (o : Operand) (s : State) : Host.Outcome State Fault Refusal :=
  .next ((s.setUnderflow (s.acc.getLsbD 0)).setAcc (shiftRight s.acc (busValue o s).toNat))

/-- `rol` (R94). -/
def execRol (o : Operand) (s : State) : Host.Outcome State Fault Refusal :=
  .next (s.setAcc (rotateLeft s.acc (busValue o s).toNat))

/-- `ror` (R95). -/
def execRor (o : Operand) (s : State) : Host.Outcome State Fault Refusal :=
  .next (s.setAcc (rotateRight s.acc (busValue o s).toNat))

/-- `comp` (R96). -/
def execComp (o : Operand) (s : State) : Host.Outcome State Fault Refusal :=
  .next (s.setAcc (compareWords s.acc (busValue o s)))

end Sys2Proof.Machine
end

