-- ==== Sys2Proof/Machine/PortSystem.lean ====
section
/-! DEFINITION. The port and system instructions (spec/45_port_system.md). -/

namespace Sys2Proof.Machine

/-- `portw` (R107). -/
def execPortw (o : Operand) (s : State) : Host.Outcome State Fault Refusal :=
  .next (s.writePort (busValue o s) s.acc)

/-- `portr` (R108). -/
def execPortr (o : Operand) (s : State) : Host.Outcome State Fault Refusal :=
  .next (s.setAcc (s.ports.read (busValue o s)))

/-- `int` (R109): the bus value as a non-negative exit code. -/
def execInt (o : Operand) (s : State) : Host.Outcome State Fault Refusal :=
  .next (s.stop ((busValue o s).toNat : Int))

/-- `halt` (R110); the bus value is ignored. -/
def execHalt (_o : Operand) (s : State) : Host.Outcome State Fault Refusal :=
  .next (s.stop 0)

end Sys2Proof.Machine
end

