-- ==== Sys2Proof/Machine/Dispatch.lean ====
section
/-! DEFINITION. Dispatch (spec/40_dispatch_engine.md R63, R65 steps 3 and 4): one arm per instruction, each a
call of that instruction's meaning, which resolves the bus and runs the handler. Counting, the flag refresh and
the advance come after every handler alike and stand in Machine/Engine.lean. -/

namespace Sys2Proof.Machine

def exec (i : Instr) (s : State) : Host.Outcome State Fault Refusal :=
  match i with
  | .load o => Sys2Proof.Machine.execLoad o s
  | .store o => Sys2Proof.Machine.execStore o s
  | .loadp o => Sys2Proof.Machine.execLoadp o s
  | .loadpr o => Sys2Proof.Machine.execLoadpr o s
  | .storep o => Sys2Proof.Machine.execStorep o s
  | .tapr o => Sys2Proof.Machine.execTapr o s
  | .push o => Sys2Proof.Machine.execPush o s
  | .pop o => Sys2Proof.Machine.execPop o s
  | .call o => Sys2Proof.Machine.execCall o s
  | .ret o => Sys2Proof.Machine.execRet o s
  | .jump o => Sys2Proof.Machine.execJump o s
  | .jumpc o => Sys2Proof.Machine.execJumpc o s
  | .clf o => Sys2Proof.Machine.execClf o s
  | .and o => Sys2Proof.Machine.execAnd o s
  | .or o => Sys2Proof.Machine.execOr o s
  | .xor o => Sys2Proof.Machine.execXor o s
  | .lsl o => Sys2Proof.Machine.execLsl o s
  | .lsr o => Sys2Proof.Machine.execLsr o s
  | .rol o => Sys2Proof.Machine.execRol o s
  | .ror o => Sys2Proof.Machine.execRor o s
  | .comp o => Sys2Proof.Machine.execComp o s
  | .add o => Sys2Proof.Machine.execAdd o s
  | .sub o => Sys2Proof.Machine.execSub o s
  | .addc o => Sys2Proof.Machine.execAddc o s
  | .subc o => Sys2Proof.Machine.execSubc o s
  | .inc o => Sys2Proof.Machine.execInc o s
  | .dec o => Sys2Proof.Machine.execDec o s
  | .mul o => Sys2Proof.Machine.execMul o s
  | .div o => Sys2Proof.Machine.execDiv o s
  | .mod o => Sys2Proof.Machine.execMod o s
  | .portw o => Sys2Proof.Machine.execPortw o s
  | .portr o => Sys2Proof.Machine.execPortr o s
  | .int o => Sys2Proof.Machine.execInt o s
  | .halt o => Sys2Proof.Machine.execHalt o s

end Sys2Proof.Machine
end

