-- ==== Sys2Proof/Machine/Engine.lean ====
section
/-! DEFINITION. The step every instruction goes through and the loop of a run (spec/40_dispatch_engine.md R64 to
R73). -/

namespace Sys2Proof.Machine

/-- Step 4's count (R65, R125). -/
def State.countInstruction (s : State) : State :=
  { s with instructionsExecuted := s.instructionsExecuted + 1 }

/-- Step 6: `PC <- wrap16(PC + 1)` from the value the handler left (R69). -/
def State.advancePc (s : State) : State := s.setPc (s.pc + 1)

/-- What follows every handler, a stopping one too: the count, the flag refresh, the advance, in this order (R65). -/
def State.finishStep (s : State) : State := s.countInstruction.refreshPZS.advancePc

/-- The rest of the step after a handler's outcome. -/
def finishOutcome : Host.Outcome State Fault Refusal → Host.Outcome State Fault Refusal
  | .next s => .next s.finishStep
  | .fault r => .fault r
  | .refused r => .refused r

/-- Steps 2 to 4 of R65: decode the fetched word and run what its opcode selects under the machine's `OPCODE_MAP`, which
is the trap handler where no mnemonic claims the slot (R52, R54, R63, R113). -/
def dispatchWord (w : RomWord) (s : State) : Host.Outcome State Fault Refusal :=
  match decodeWith s.params.opcodeMap w with
  | .instr i => exec i s
  | .unknownOpcode _ => .next (s.takeException .unknownOpcode)

/-- `Step()` of R65: one instruction. -/
def instructionStep (s : State) : Host.Outcome State Fault Refusal :=
  finishOutcome (dispatchWord s.fetch s)

/-- The loop of a run, at most `k` steps of it: the state right after the first step whose handler stopped (R64,
R139), or nothing when `k` steps do not reach one. A run that never stops gives nothing for every `k` (R72). -/
def runUntilStop : Nat → State → Option State
  | 0, _ => none
  | k + 1, s =>
    match instructionStep s with
    | .next t => if t.running then runUntilStop k t else some t
    | .fault _ => none
    | .refused _ => none

/-- A whole `run()` as the host calls it, at most `k` steps of it: the exit code it returns and the state it leaves (R64,
R71). Whether the host may call it is `State.hostRun` of Machine/HostBoundary.lean. -/
def completeRun (k : Nat) (s : State) : Option (Int × State) :=
  match runUntilStop k s.startRun with
  | some t => some (t.exitCode, t)
  | none => none

end Sys2Proof.Machine
end

