-- ==== Sys2Proof/Machine/HostBoundary.lean ====
section
/-! DEFINITION. The host's side: the binary image and its import (spec/30_encoding.md R57 to R61), the moves and the
reads the host has between runs (spec/60_exceptions.md R121, R122, R128), and what a step of a stopped core is. -/

namespace Sys2Proof.Machine

/-! ## The binary image -/

/-- The ways an image is refused; nothing is imported and no run may start (R58, R60). -/
inductive LoadError where
  /-- The tag is not `QT` (R58; `QM` too, decision D20). -/
  | unsupportedTag
  /-- No NUL after the tag (R58, decision D20). -/
  | missingNul
  /-- The length past the NUL is not a multiple of 4 (R58). -/
  | truncatedRecord
  /-- More than 65536 records (R60, decision D4). -/
  | tooManyRecords
  deriving DecidableEq, Repr

/-- One 4-byte record of an image as the three values of R57; the opcode is still 8 bits wide. -/
structure Record where
  m : Bool
  v : Word
  op8 : Byte
  deriving DecidableEq, Repr

/-- The tag `QT` in ASCII (R57). -/
def imageTag : List Byte := [0x51#8, 0x54#8]

/-- A stream cut at its first NUL: the bytes before it and the bytes past it. -/
def splitAtNul : List Byte → Option (List Byte × List Byte)
  | [] => none
  | b :: rest =>
    if b = 0#8 then some ([], rest)
    else
      match splitAtNul rest with
      | some (tag, past) => some (b :: tag, past)
      | none => none

/-- Record `b0 b1 b2 b3`: bit 0 of `b0`, then a big-endian value, then the opcode; bits 7..1 of `b0` are ignored (R57,
R58, decision D20). -/
def Record.ofBytes (b0 b1 b2 b3 : Byte) : Record where
  m := b0.getLsbD 0
  v := BitVec.ofNat 16 (b1.toNat <<< 8 ||| b2.toNat)
  op8 := b3

/-- The records of the bytes past the NUL; none when the last one is truncated (R57, R58). -/
def parseRecords : List Byte → Option (List Record)
  | [] => some []
  | b0 :: b1 :: b2 :: b3 :: rest =>
    match parseRecords rest with
    | some rs => some (Record.ofBytes b0 b1 b2 b3 :: rs)
    | none => none
  | _ => none

/-- An image read as records, or the reason it is a load error (R57, R58, R60). -/
def parseImage (image : List Byte) : Except LoadError (List Record) :=
  match splitAtNul image with
  | none => .error .missingNul
  | some (tag, past) =>
    if tag = imageTag then
      match parseRecords past with
      | none => .error .truncatedRecord
      | some rs => if rs.length ≤ Config.spaceCells then .ok rs else .error .tooManyRecords
    else .error .unsupportedTag

/-- The ROM word of a record: `encode` with no masking, so bit 7 of the opcode byte lands in bit 0 of `V` (R48, R59,
spec/90_conflicts.md C1). -/
def Record.word (r : Record) : RomWord := encodeTriple ⟨r.m.toNat, r.v.toNat, r.op8.toNat⟩

/-- Store records from index `i` on (R59). -/
def storeRecords : Nat → List Record → Memory 32 → Memory 32
  | _, [], rom => rom
  | i, r :: rs, rom => storeRecords (i + 1) rs (rom.set i r.word)

/-! ## The host's moves -/

/-- `initialize_memory`: every piece of core state to its reset value; the machine's parameters and what the host is going
to do stay (R131, R63). -/
def State.initializeMemory (s : State) : State := { State.resetWith s.params with hostMoves := s.hostMoves }

/-- `import_code(image)`: once after a reset and before the first run. An image that does not parse changes nothing but
bars every run until the next reset; an import out of this order is refused and changes nothing (R58 to R60, R122, R132,
decisions D4, D20, D21, notes/assumptions/15.md). -/
def State.importCode (s : State) (image : List Byte) : State :=
  match s.imageStatus with
  | .blank =>
    match parseImage image with
    | .ok rs => { s with rom := storeRecords 0 rs s.rom, imageStatus := .loaded }
    | .error _ => { s with imageStatus := .failed }
  | .closed => s
  | .loaded => s
  | .failed => s

/-- The host's `run`: starts a run, unless the import failed; the first run of a core with nothing imported also ends
the time for an import (R64, R119, R132). -/
def State.hostRun (s : State) : State :=
  match s.imageStatus with
  | .failed => s
  | .blank => { s.startRun with imageStatus := .closed }
  | .closed => s.startRun
  | .loaded => s.startRun

/-- One move of the host (R121, R122). -/
def State.hostMove (s : State) : HostMove → State
  | .initializeMemory => s.initializeMemory
  | .importCode image => s.importCode image
  | .run => s.hostRun
  | .writePort p v => s.writePort p v

/-- A step of a stopped core: the host's next move. With none pending the core stays as it is: nothing inside it wakes
it (R129). -/
def hostStep (s : State) : Host.Outcome State Fault Refusal :=
  match s.hostMoves with
  | [] => .next s
  | h :: rest => .next (State.hostMove { s with hostMoves := rest } h)

/-! ## The host's reads -/

/-- The four sequences of the dump (R128). -/
structure Dump where
  cache : List Word
  valueStack : List Word
  addressStack : List Word
  ports : List Word
  deriving DecidableEq, Repr

/-- What the host may read, and only while no run is in progress (R121, R42). -/
def betweenRuns {α : Type} (s : State) (x : α) : Option α := if s.running then none else some x

/-- `exit_code` and `instructions_executed` of the last run (R121). -/
def hostStatus (s : State) : Option (Int × Nat) := betweenRuns s (s.exitCode, s.instructionsExecuted)

/-- The module layer's read of a `PORT` cell (R121). -/
def hostReadPort (s : State) (p : Word) : Option Word := betweenRuns s (s.ports.read p)

/-- The module layer's read of a `CACHE` cell (R121). -/
def hostReadCache (s : State) (a : Word) : Option Word := betweenRuns s (s.cache.read a)

/-- The dump: read-only snapshots of `CACHE`, `VS`, `AS` and `PORT`; neither `ROM` nor a register (R128). -/
def hostDump (s : State) : Option Dump :=
  betweenRuns s ⟨s.cache.snapshot, s.valueStack.snapshot, s.addressStack.snapshot, s.ports.snapshot⟩

/-! ## What the host reads out of a stop -/

/-- The causes of a stop, as their exit codes tell them (R112). -/
inductive StopCause where
  /-- `halt`, or `int 0` -/
  | halt
  /-- `int 0x80`: yield to a peripheral module -/
  | peripheralYield
  /-- any other `int n` -/
  | guest (n : Word)
  | exception (e : SyncException)
  deriving DecidableEq, Repr

/-- The cause an exit code stands for under the parameters `p`; nothing for a code no stop has (R112). R5 lets
`TRAP_EXIT_CODE` be a code of `int n` too, from 1 to 65535; the spec does not say which cause such a code means, and that
the trap is named is a DESIGN CHOICE (notes/assumptions/30.md). Under the defaults no code has two causes. -/
def stopCause (p : Config.Params) (code : Int) : Option StopCause :=
  if code = 0 then some .halt
  else if code = 128 then some .peripheralYield
  else if code = p.trapExitCode then some (.exception .unknownOpcode)
  else if code = p.divZeroExitCode then some (.exception .divideByZero)
  else if 0 < code ∧ code ≤ 65535 then some (.guest (wrap16 code))
  else none

/-- The peripheral modules port 0 selects by convention; 1 is the only value the spec gives a meaning (R120, R123). -/
inductive PeripheralModule where
  | screen
  deriving DecidableEq, Repr

/-- The module a port 0 value selects (R123). -/
def moduleOf (port0 : Word) : Option PeripheralModule := if port0 = 1#16 then some .screen else none

/-- The framebuffer colour modes of port 2 (R123). -/
inductive ColorMode where
  | monochrome
  | grayscale8
  | rgb565
  | rgb888
  deriving DecidableEq, Repr

/-- The colour mode a port 2 value selects (R123). -/
def colorModeOf (port2 : Word) : Option ColorMode :=
  if port2 = 1#16 then some .monochrome
  else if port2 = 8#16 then some .grayscale8
  else if port2 = 16#16 then some .rgb565
  else if port2 = 24#16 then some .rgb888
  else none

/-- The two meanings of port 1 (R123). -/
inductive PortOne where
  /-- on its first use: the packed size of the screen -/
  | screenSize (width height : Nat)
  /-- on every later use: where in `CACHE` the framebuffer starts -/
  | cacheOffset (a : Word)
  deriving DecidableEq, Repr

/-- What a port 1 value means: `(width << 8) | height` on first use, a cache start offset on subsequent calls (R123).
Whether the first use has happened is module state, so it is an argument (R27). -/
def portOneOf (firstUseDone : Bool) (port1 : Word) : PortOne :=
  match firstUseDone with
  | false => .screenSize (port1.toNat / 256) (port1.toNat % 256)
  | true => .cacheOffset port1

/-- The module layer's read of framebuffer cell `i`: the `CACHE` cell `i` places past the offset in port 1 (R123). The
spec does not say what a reader makes of a place past the last cell; here there is no such read (DESIGN CHOICE,
notes/assumptions/31.md). -/
def hostReadFrameCell (s : State) (i : Nat) : Option Word :=
  let a := (s.ports.read 1#16).toNat + i
  if a < Config.spaceCells then hostReadCache s (BitVec.ofNat 16 a) else none

/-- The module a stopped core asks for: the run ended with the yield code and port 0 names a module (R120). -/
def requestedModule (s : State) : Option PeripheralModule :=
  match hostStatus s with
  | some (code, _) => if code = 128 then moduleOf (s.ports.read 0#16) else none
  | none => none

/-- What the screen reads from the ports when it is asked for: the meaning of port 1 and the colour mode of port 2, which
is none where port 2 holds a value without a meaning (R120, R123). -/
structure ScreenRequest where
  portOne : PortOne
  colorMode : Option ColorMode
  deriving DecidableEq, Repr

/-- The request a stopped core makes of the screen, given the module's own note of whether port 1 was used (R123). -/
def screenRequest (firstUseDone : Bool) (s : State) : Option ScreenRequest :=
  match requestedModule s with
  | some .screen => some ⟨portOneOf firstUseDone (s.ports.read 1#16), colorModeOf (s.ports.read 2#16)⟩
  | none => none

end Sys2Proof.Machine
end

