-- ==== Sys2Proof/Machine/Step.lean ====
section
/-! DEFINITION. One step of the machine: of the core while a run is in progress, of the host while none is
(spec/00_scope.md R11, spec/20_memory.md R42, spec/40_dispatch_engine.md R65). -/

namespace Sys2Proof.Machine

/-- One step. `running` says which of the two agents moves. -/
def step (s : State) : Host.Outcome State Fault Refusal :=
  if s.running then instructionStep s else hostStep s

/-- The state with the word `w` at `PC`, a run in progress and the image taken as loaded: what an import and the
host's `run` leave, for one word (notes/assumptions/11.md). -/
def State.withFetchWord (s : State) (nbits w : Nat) : State :=
  { s.writeRom s.pc (BitVec.ofNat 32 (w % 2 ^ nbits)) with running := true, imageStatus := .loaded }

end Sys2Proof.Machine
end

