-- ==== Sys2Proof/Safety.lean ====
section
/-! DEFINITION. The terms in which claims speak of the machine: how a step ends around an instruction
(spec/40_dispatch_engine.md R65, R68, R69), which instructions may write what (spec/10_state.md R12, R21,
spec/20_memory.md R28), and the invariant every step keeps. No state of this machine is unsafe: there is no fault
to avoid. -/

namespace Sys2Proof.Machine

/-- "XOR-fold of all 16 bits of ACC" (R68), the source's wording of parity; the model computes it as
`popcount(ACC) mod 2`. -/
def xorFold (v : Word) : Bool := (List.range 16).foldl (fun b i => b ^^ v.getLsbD i) false

/-- How a step goes on after a handler that left the state `u`: the count, P, Z and S of `ACC`, the advance (R65, R68,
R69). -/
def afterHandler (u : State) : State :=
  { u with
    instructionsExecuted := u.instructionsExecuted + 1
    flags := { u.flags with p := xorFold u.acc, z := decide (u.acc = 0#16), s := u.acc.getLsbD 15 }
    pc := u.pc + 1 }

/-- The instruction `i` is the next to run: a run is in progress and `ROM[PC]` decodes to `i` under the machine's
`OPCODE_MAP`. -/
abbrev State.About (s : State) (i : Instr) : Prop :=
  s.running = true ∧ decodeWith s.params.opcodeMap (s.rom.read s.pc) = .instr i

/-- If `i` is the next instruction of `s`, the step from `s` ends in what follows the handler's state `u`. -/
def StepEnds (i : Instr) (s u : State) : Prop := s.About i → step s = .next (afterHandler u)

/-- The memory `m'` is `m` with the one cell `a` holding `v`, and is in canonical form if `m` was. -/
def OneCellWritten (m m' : Memory 16) (a v : Word) : Prop :=
  m'.read a = v ∧ (∀ b, b ≠ a → m'.read b = m.read b) ∧ (m.wf = true → m'.wf = true)

/-- Bits 31..24 of every listed ROM word are 0 (spec/30_encoding.md R61). -/
def romClear (m : Memory 32) : Bool := m.all fun c => decide (c.2.toNat < 2 ^ 24)

/-- The invariant: the parameters meet the spec's constraints (R5), every space is in canonical form, ROM words fit 24
bits (R61), ROM is as reset left it unless an image was imported (R26, R58), and no run is in progress before the import's
turn has passed or after a failed import (R132). -/
structure State.Inv (s : State) : Prop where
  params_wf : s.params.wellFormed = true
  rom_wf : s.rom.wf = true
  cache_wf : s.cache.wf = true
  valueStack_wf : s.valueStack.wf = true
  addressStack_wf : s.addressStack.wf = true
  ports_wf : s.ports.wf = true
  rom_clear : romClear s.rom = true
  rom_unloaded : s.imageStatus ≠ .loaded → s.rom = []
  blank_stopped : s.imageStatus = .blank → s.running = false
  failed_stopped : s.imageStatus = .failed → s.running = false

/-! ## Who writes what -/

/-- The writers of `ACC` (R12). -/
def accWriters : List Mnemonic :=
  [.load, .loadp, .pop, .and, .or, .xor, .lsl, .lsr, .rol, .ror, .comp] ++
  [.add, .sub, .addc, .subc, .inc, .dec, .mul, .div, .mod, .portr]

/-- The writers of `PR` (R12, R14). -/
def prWriters : List Mnemonic := [.loadpr, .tapr]

/-- The writers of `PC` other than the advance (R12). -/
def pcWriters : List Mnemonic := [.call, .ret, .jump, .jumpc]

/-- The writers of `SP` (R12, R16). -/
def spWriters : List Mnemonic := [.push, .pop]

/-- The writers of `ASP` (R12, R17). -/
def aspWriters : List Mnemonic := [.call, .ret]

/-- The writers of `F.C` (R21). -/
def carryWriters : List Mnemonic := [.clf, .add, .sub, .addc, .subc, .inc, .dec]

/-- The writers of `F.V` (R21). -/
def overflowWriters : List Mnemonic := [.clf, .lsl, .mul]

/-- The writers of `F.U` (R21). -/
def underflowWriters : List Mnemonic := [.clf, .lsr]

/-- The writers of `CACHE` (R28, R31). -/
def cacheWriters : List Mnemonic := [.store, .storep]

/-- The mnemonics whose handler ignores the bus value, `push` left aside (R51). -/
def busIgnorers : List Mnemonic := [.loadp, .storep, .tapr, .pop, .ret, .clf, .inc, .dec, .halt]

/-- The ways a step can end a run: the instruction or the trap, and the exit code it leaves (R112). -/
inductive StopsWith (s : State) : Int → Prop where
  | halt (o : Operand) : s.About (.halt o) → StopsWith s 0
  | int (o : Operand) : s.About (.int o) → StopsWith s ((busValue o s).toNat : Int)
  | div (o : Operand) : s.About (.div o) → busValue o s = 0#16 → StopsWith s s.params.divZeroExitCode
  | mod (o : Operand) : s.About (.mod o) → busValue o s = 0#16 → StopsWith s s.params.divZeroExitCode
  | trap : s.running = true → (∀ n, s.params.opcodeMap n ≠ (s.rom.read s.pc).extractLsb' 0 7) →
      StopsWith s s.params.trapExitCode

end Sys2Proof.Machine
end

