-- ==== Sys2Proof/Certificates/Slice0/Obligations.lean ====
section
/-! DEFINITION. The statements for the provers. Each docstring names the rule or section of spec/ it rests on. A
statement that rests on one of the spec's own decisions (spec/92_eei_decisions.md) says so and names the log entry
under notes/assumptions/. A statement about all states is about every machine: the parameters of spec/00_scope.md R5 are
a field of the state (log entry 29), and where it names no value of one it holds for every value. -/

open Sys2Proof Sys2Proof.Machine

/-! ## Encoding -/

/-- Words written out from the spec's encodings (spec/95_test_vectors.md) decode to the instructions they stand for,
and unclaimed opcodes to none. Rests on the default numbering (decision D1, log entry 1). -/
def Obligations.SampleWordsDecode : Prop :=
  decode 0x00803296#32 = .instr (.add (.indirect 101#16)) ∧
  decode 0x00800381#32 = .instr (.load (.indirect 7#16)) ∧
  decode 0x007FE00C#32 = .instr (.jumpc (.immediate 0xFFC0#16)) ∧
  decode 0x00000A13#32 = .instr (.rol (.immediate 20#16)) ∧
  decode 0x00004021#32 = .instr (.int (.immediate 0x80#16)) ∧
  decode 0xFF000081#32 = .instr (.load (.immediate 1#16)) ∧
  decode 0x0000003F#32 = .unknownOpcode 63#7 ∧
  decode 0x00000000#32 = .unknownOpcode 0#7

/-- R47: the three fields of any word, and bits 31..24 play no part in decoding, under whatever numbering. -/
def Obligations.DecodeReadsTheFields : Prop :=
  (∀ w : RomWord,
    (decodeFields w).m.toNat = w.toNat / 2 ^ 23 % 2 ∧
    (decodeFields w).v.toNat = w.toNat / 2 ^ 7 % 65536 ∧
    (decodeFields w).op.toNat = w.toNat % 128) ∧
  ∀ w w' : RomWord, w.toNat % 2 ^ 24 = w'.toNat % 2 ^ 24 → decodeFields w = decodeFields w' ∧
    ∀ f : OpcodeMap, decodeWith f w = decodeWith f w'

/-- R49: every valid triple survives encoding and decoding. -/
def Obligations.ValidTriplesRoundTrip : Prop :=
  ∀ t : Triple, t.m < 2 → t.v < 65536 → t.op < 128 →
    (decodeFields (encodeTriple t)).m.toNat = t.m ∧
    (decodeFields (encodeTriple t)).v.toNat = t.v ∧
    (decodeFields (encodeTriple t)).op.toNat = t.op

/-- R48: `encode` is the unmasked formula, and an 8-bit opcode with bit 7 set leaves that bit in bit 0 of `V`. -/
def Obligations.UnmaskedOpcodeLeaksIntoValue : Prop :=
  (∀ m v op : Nat, encodeRaw m v op = (m * 2 ^ 23) ||| (v * 2 ^ 7) ||| op) ∧
  ∀ (m : Bool) (v : Word) (op8 : Nat), 128 ≤ op8 → op8 < 256 →
    (decodeFields (encodeTriple ⟨m.toNat, v.toNat, op8⟩)).m = m ∧
    (decodeFields (encodeTriple ⟨m.toNat, v.toNat, op8⟩)).v = v ||| 1#16 ∧
    (decodeFields (encodeTriple ⟨m.toNat, v.toNat, op8⟩)).op.toNat = op8 - 128

/-- Under every admissible opcode numbering, decoding gives back every well-formed instruction from its word, with
every operand value (spec/30_encoding.md, R46 to R53). -/
def Obligations.DecodeEncodeEveryInstruction : Prop :=
  ∀ f : OpcodeMap, f.admissible = true → ∀ i : Instr, i.wellFormed = true →
    decodeWith f (encodeWith f i) = .instr i

/-- Each word has one meaning: under every opcode numbering, a word that decodes to an instruction is that
instruction's word but for the ignored bits 31..24. -/
def Obligations.EncodeOfDecodedWord : Prop :=
  ∀ (f : OpcodeMap) (w : RomWord) (i : Instr), decodeWith f w = .instr i →
    encodeWith f i = w &&& 0x00FFFFFF#32

/-- The dispatch table under every admissible numbering: slot `OPCODE_MAP(n)` is `n`'s and every other slot is the
trap handler's (spec/40_dispatch_engine.md, R63); the default numbering is admissible and leaves 94 slots to the trap
(R54, decision D1, log entry 1). -/
def Obligations.DispatchSlotsOfEveryMap : Prop :=
  (∀ f : OpcodeMap, f.admissible = true →
    (∀ n : Mnemonic, dispatchSlot f (f n) = some n) ∧
    ∀ op : Opcode, (∀ n : Mnemonic, f n ≠ op) → dispatchSlot f op = none) ∧
  defaultOpcodeMap.admissible = true ∧
  ((List.range 128).filter fun k => dispatchSlot defaultOpcodeMap (BitVec.ofNat 7 k) == none).length = 94

/-! ## Memory and reset -/

/-- Equal memories are equal data: two memories in canonical form that read alike everywhere are the same list. -/
def Obligations.CanonicalMemoriesWithEqualReads : Prop :=
  ∀ (w : Nat) (m m' : Memory w), m.wf = true → m'.wf = true → (∀ a : Word, m.read a = m'.read a) → m = m'

/-- The reset state under every value of the parameters (R26; `running`, `exit_code` and the count by decision D12, log
entry 9); `State.reset` is the one under the default parameters. The model's own fields `imageStatus` and `hostMoves` are
left out. -/
def Obligations.ResetLeavesZeros : Prop :=
  State.reset = State.resetWith defaultParams ∧ ∀ p : Config.Params,
  let s := State.resetWith p
  s.params = p ∧
  s.acc = 0#16 ∧ s.pr = 0#16 ∧ s.pc = 0#16 ∧ s.sp = 0#16 ∧ s.asp = 0#16 ∧ s.flags.toWord = 0#16 ∧
  (∀ a : Word, s.rom.read a = 0#32 ∧ s.cache.read a = 0#16 ∧ s.valueStack.read a = 0#16 ∧
    s.addressStack.read a = 0#16 ∧ s.ports.read a = 0#16) ∧
  s.running = false ∧ s.exitCode = 0 ∧ s.instructionsExecuted = 0

/-- The invariant holds after reset, under the default parameters and under any that meet the constraints of
spec/00_scope.md R5. -/
def Obligations.ResetMeetsTheInvariant : Prop :=
  State.reset.Inv ∧ ∀ p : Config.Params, p.wellFormed = true → (State.resetWith p).Inv

/-- Every step, of the core or of the host, keeps the invariant (spec/20_memory.md, spec/30_encoding.md R61), and no step
changes the machine's parameters (spec/00_scope.md R5, spec/40_dispatch_engine.md R63). That ROM stays empty after a run
with nothing imported is log entry 15, that a failed import bars every run log entry 14. -/
def Obligations.EveryStepKeepsTheInvariant : Prop :=
  (∀ s t : State, s.Inv → step s = .next t → t.Inv) ∧ ∀ s t : State, step s = .next t → t.params = s.params

/-! ## The engine -/

/-- R65: the step runs what the fetched word selects, the decoded instruction or else the trap handler, then counts,
refreshes and advances; a fault or a refusal of `exec` would end the step as it is. -/
def Obligations.StepRunsTheDecodedInstruction : Prop :=
  (∀ (s : State) (i : Instr), s.About i →
    (∀ u, exec i s = .next u → step s = .next (afterHandler u)) ∧
    (∀ r, exec i s = .fault r → step s = .fault r) ∧
    (∀ r, exec i s = .refused r → step s = .refused r)) ∧
  ∀ (s : State) (op : Opcode), s.running = true → decodeWith s.params.opcodeMap (s.rom.read s.pc) = .unknownOpcode op →
    step s = .next (afterHandler (s.takeException .unknownOpcode))

/-- R113: under whatever parameters, an opcode no mnemonic claims stops the run with `TRAP_EXIT_CODE`; the handler writes nothing else, and the
count, refresh and advance follow. -/
def Obligations.UnclaimedOpcodeTraps : Prop :=
  ∀ s : State, s.running = true → (∀ n, s.params.opcodeMap n ≠ (s.rom.read s.pc).extractLsb' 0 7) →
    step s = .next (afterHandler { s with running := false, exitCode := s.params.trapExitCode })

/-- R68: after every step of a run P, Z and S describe the `ACC` that the handler left, and C, V and U are as the
handler left them. -/
def Obligations.EveryStepRefreshesPZS : Prop :=
  ∀ s t : State, s.running = true → step s = .next t →
    t.flags.p = xorFold t.acc ∧ (t.flags.z = true ↔ t.acc = 0#16) ∧ t.flags.s = t.acc.getLsbD 15 ∧
    t.flags.toWord >>> 6 = 0#16 ∧
    ∃ u, dispatchWord (s.rom.read s.pc) s = .next u ∧ t.acc = u.acc ∧
      t.flags.c = u.flags.c ∧ t.flags.v = u.flags.v ∧ t.flags.u = u.flags.u

/-- The core's `Step` is total (spec/40_dispatch_engine.md, R73): every instruction answers a next state in every state, and
so does every step of a run, which counts one instruction, the stopping one too (R125). That the steps of a stopped core
answer a next state too is the model's choice: the host's moves are steps (log entry 12), a core with no move pending
stays as it is (log entry 13), and a refused move is a next state (log entries 14 and 15). -/
def Obligations.EveryStepIsTotal : Prop :=
  (∀ (i : Instr) (s : State), ∃ u, exec i s = .next u) ∧
  (∀ s : State, ∃ t, step s = .next t) ∧
  ∀ s t : State, s.running = true → step s = .next t → t.instructionsExecuted = s.instructionsExecuted + 1

/-- A run ends only through `halt`, `int`, the trap handler or a zero divisor, with the exit code of that cause, and a
step that does not end it leaves the exit code (spec/40_dispatch_engine.md, spec/60_exceptions.md; the zero divisor by
decision D3, log entry 3). -/
def Obligations.OnlyStopsEndARun : Prop :=
  ∀ s t : State, s.running = true → step s = .next t →
    (t.running = false → StopsWith s t.exitCode) ∧ (t.running = true → t.exitCode = s.exitCode)

/-- Every cause of a stop ends the run with its code (the converse of `OnlyStopsEndARun`); under the default parameters
the codes of the two exceptions are no code of `halt` or `int` (decisions D2, D3, log entries 2 and 3). Under every
admissible value of the parameters reading a code back names its cause: 0 is `halt`'s, 128 the yield's, each exception's
its own, and any other code of `int` the guest's. Where `TRAP_EXIT_CODE` is a code of `int` too, that it names the trap is
the model's choice (log entry 30), and the clause about `int` leaves that one code out. -/
def Obligations.EveryStopCauseEndsTheRun : Prop :=
  (∀ (s : State) (code : Int), StopsWith s code → ∃ t, step s = .next t ∧ t.running = false ∧ t.exitCode = code) ∧
  defaultParams.wellFormed = true ∧
  (∀ n : Word, (n.toNat : Int) ≠ defaultParams.trapExitCode ∧ (n.toNat : Int) ≠ defaultParams.divZeroExitCode) ∧
  ∀ p : Config.Params, p.wellFormed = true →
    stopCause p 0 = some .halt ∧ stopCause p 128 = some .peripheralYield ∧
    stopCause p p.trapExitCode = some (.exception .unknownOpcode) ∧
    stopCause p p.divZeroExitCode = some (.exception .divideByZero) ∧
    ∀ n : Word, (n.toNat : Int) ≠ p.divZeroExitCode ∧
      (n ≠ 0#16 → n ≠ 128#16 → (n.toNat : Int) ≠ p.trapExitCode → stopCause p (n.toNat : Int) = some (.guest n))

/-- No instruction reads `instructions_executed` or `exit_code`, the import's status or what the host will do
(spec/10_state.md, R24): two states that differ only there end alike but there. -/
def Obligations.EngineStatusIsInvisible : Prop :=
  ∀ (i : Instr) (s u : State) (n : Nat) (e : Int) (g : ImageStatus) (h : List HostMove),
    exec i s = .next u →
    ∃ u', exec i { s with instructionsExecuted := n, exitCode := e, imageStatus := g, hostMoves := h } = .next u' ∧
      u' = { u with instructionsExecuted := n, exitCode := u'.exitCode, imageStatus := g, hostMoves := h } ∧
      (u'.exitCode = e ∧ u.exitCode = s.exitCode ∨ u'.exitCode = u.exitCode)

/-- No step of a run writes `ROM` and no instruction reads it as data (spec/20_memory.md, R30). Between runs only a reset
(spec/70_reset_and_hazards.md, R131) and an import write it, and an import only while the import status is blank: a second
15). -/
def Obligations.RomIsReadOnlyInARun : Prop :=
  (∀ s t : State, s.running = true → step s = .next t → t.rom = s.rom) ∧
  (∀ (i : Instr) (s u : State) (rom : Memory 32), exec i s = .next u →
    exec i { s with rom := rom } = .next { u with rom := rom }) ∧
  ∀ s t : State, s.running = false → step s = .next t →
    t.rom = s.rom ∨ (∃ image rest, s.hostMoves = .importCode image :: rest ∧ s.imageStatus = .blank) ∨
      ∃ rest, s.hostMoves = .initializeMemory :: rest

/-- Each data memory is written only by its own instructions (spec/20_memory.md, the writers of the five spaces), and
the host's pending moves, the import's status and the machine's parameters by none. -/
def Obligations.CellsWrittenOnlyByTheirInstructions : Prop :=
  ∀ (i : Instr) (s u : State), exec i s = .next u →
    (i.mnemonic ∉ cacheWriters → u.cache = s.cache) ∧
    (i.mnemonic ≠ .push → u.valueStack = s.valueStack) ∧
    (i.mnemonic ≠ .call → u.addressStack = s.addressStack) ∧
    (i.mnemonic ≠ .portw → u.ports = s.ports) ∧
    u.imageStatus = s.imageStatus ∧ u.hostMoves = s.hostMoves ∧ u.params = s.params

/-- Each register is written only by its own instructions (spec/10_state.md, the table of the register file). -/
def Obligations.RegistersWrittenOnlyByTheirInstructions : Prop :=
  ∀ (i : Instr) (s u : State), exec i s = .next u →
    (i.mnemonic ∉ accWriters → u.acc = s.acc) ∧
    (i.mnemonic ∉ prWriters → u.pr = s.pr) ∧
    (i.mnemonic ∉ pcWriters → u.pc = s.pc) ∧
    (i.mnemonic ∉ spWriters → u.sp = s.sp) ∧
    (i.mnemonic ∉ aspWriters → u.asp = s.asp)

/-- Each flag is written only by its own handlers, and P, Z and S by no handler but `clf`'s (spec/10_state.md, the
table of flag writers; that they assign is decision D6, log entry 5). -/
def Obligations.FlagsWrittenOnlyByTheirInstructions : Prop :=
  ∀ (i : Instr) (s u : State), exec i s = .next u →
    (i.mnemonic ∉ carryWriters → u.flags.c = s.flags.c) ∧
    (i.mnemonic ∉ overflowWriters → u.flags.v = s.flags.v) ∧
    (i.mnemonic ∉ underflowWriters → u.flags.u = s.flags.u) ∧
    (i.mnemonic ≠ .clf → u.flags.p = s.flags.p ∧ u.flags.z = s.flags.z ∧ u.flags.s = s.flags.s)

/-- R19: the places of the six flags in `F`; bits 15..6 are always zero. -/
def Obligations.FlagRegisterLayout : Prop :=
  ∀ f : Flags,
    f.toWord.getLsbD 0 = f.c ∧ f.toWord.getLsbD 1 = f.p ∧ f.toWord.getLsbD 2 = f.z ∧
    f.toWord.getLsbD 3 = f.s ∧ f.toWord.getLsbD 4 = f.v ∧ f.toWord.getLsbD 5 = f.u ∧
    ∀ k, 6 ≤ k → f.toWord.getLsbD k = false

/-! ## Operands -/

/-- R50: the bus value is `V`, or the cache cell `V` names; one level of indirection. -/
def Obligations.BusValueOfBothForms : Prop :=
  ∀ (m : Bool) (v : Word) (s : State),
    busValue (Operand.ofFields m v) s = if m = false then v else s.cache.read v

/-- In the handlers that ignore the bus, `M` and `V` have no effect (spec/30_encoding.md, R51); `push` is among them when
`PUSH_SOURCE` is `ACC`, which is its default (decision D5, log entry 4). -/
def Obligations.IgnoredOperandsHaveNoEffect : Prop :=
  ∀ (n : Mnemonic) (s : State), n ∈ busIgnorers ∨ n = .push ∧ s.params.pushSource = .acc → ∀ o o' : Operand,
    exec (Instr.ofMnemonic n o) s = exec (Instr.ofMnemonic n o') s

/-! ## Data transfer -/

/-- R75. -/
def Obligations.LoadCopiesTheBus : Prop :=
  ∀ (o : Operand) (s : State), ∃ u, exec (.load o) s = .next u ∧
    u = { s with acc := busValue o s } ∧ StepEnds (.load o) s u

/-- R76. -/
def Obligations.StoreWritesTheNamedCell : Prop :=
  ∀ (o : Operand) (s : State), ∃ u, exec (.store o) s = .next u ∧
    u = { s with cache := u.cache } ∧ OneCellWritten s.cache u.cache (busValue o s) s.acc ∧
    StepEnds (.store o) s u

/-- R77. -/
def Obligations.LoadpReadsTheCellAtAcc : Prop :=
  ∀ (o : Operand) (s : State), ∃ u, exec (.loadp o) s = .next u ∧
    u = { s with acc := s.cache.read s.acc } ∧ StepEnds (.loadp o) s u

/-- R79. -/
def Obligations.StorepWritesTheCellAtPr : Prop :=
  ∀ (o : Operand) (s : State), ∃ u, exec (.storep o) s = .next u ∧
    u = { s with cache := u.cache } ∧ OneCellWritten s.cache u.cache s.pr s.acc ∧ StepEnds (.storep o) s u

/-- R78, R80: `loadpr` copies the bus value into `PR`, `tapr` copies `ACC`. -/
def Obligations.LoadprAndTaprWritePr : Prop :=
  ∀ (o : Operand) (s : State), ∃ l t, exec (.loadpr o) s = .next l ∧ exec (.tapr o) s = .next t ∧
    l = { s with pr := busValue o s } ∧ t = { s with pr := s.acc } ∧
    StepEnds (.loadpr o) s l ∧ StepEnds (.tapr o) s t

/-- `push` under both values of the parameter `PUSH_SOURCE`: what is pushed is `ACC` or the bus value
(spec/41_data_transfer.md, R81; decision D5, log entry 4). -/
def Obligations.PushWritesThenIncrements : Prop :=
  ∀ (o : Operand) (s : State), ∃ u, exec (.push o) s = .next u ∧
    u = { s with valueStack := u.valueStack, sp := s.sp + 1 } ∧
    OneCellWritten s.valueStack u.valueStack s.sp (pushOperand s.params.pushSource o s) ∧
    (s.params.pushSource = .acc → pushOperand s.params.pushSource o s = s.acc) ∧
    (s.params.pushSource = .bus → pushOperand s.params.pushSource o s = busValue o s) ∧
    StepEnds (.push o) s u

/-- R82. -/
def Obligations.PopDecrementsThenReads : Prop :=
  ∀ (o : Operand) (s : State), ∃ u, exec (.pop o) s = .next u ∧
    u = { s with sp := s.sp - 1, acc := s.valueStack.read (s.sp - 1) } ∧ StepEnds (.pop o) s u

/-- Two pushes and two pops give the pushed values back in the reverse order and leave `SP` where it was, whatever `ACC`
holds in between and whatever `PUSH_SOURCE` is; when it is `ACC`, its default, they restore `ACC` to the first pushed
value (spec/95_test_vectors.md W5; decision D5, log entry 4). -/
def Obligations.PushPushPopPopRestores : Prop :=
  ∀ (s s1 s2 s3 s4 : State) (o1 o2 o3 o4 : Operand) (x y z : Word),
    exec (.push o1) s = .next s1 →
    exec (.push o2) { s1 with acc := x } = .next s2 →
    exec (.pop o3) { s2 with acc := y } = .next s3 →
    exec (.pop o4) { s3 with acc := z } = .next s4 →
    s3.acc = pushOperand s.params.pushSource o2 { s1 with acc := x } ∧
    s4.acc = pushOperand s.params.pushSource o1 s ∧ s4.sp = s.sp ∧
    (s.params.pushSource = .acc → s3.acc = x ∧ s4.acc = s.acc)

/-! ## Control transfer -/

/-- R83: the call's own address is pushed, and the advance lands on the bus value. -/
def Obligations.CallPushesItsOwnAddress : Prop :=
  ∀ (o : Operand) (s : State), ∃ u, exec (.call o) s = .next u ∧
    u = { s with addressStack := u.addressStack, asp := s.asp + 1, pc := busValue o s - 1 } ∧
    OneCellWritten s.addressStack u.addressStack s.asp s.pc ∧
    (afterHandler u).pc = busValue o s ∧ StepEnds (.call o) s u

/-- R84: the popped call site is written unchanged, and the advance gives the instruction after the call. -/
def Obligations.ReturnGoesPastTheCallSite : Prop :=
  ∀ (o : Operand) (s : State), ∃ u, exec (.ret o) s = .next u ∧
    u = { s with asp := s.asp - 1, pc := s.addressStack.read (s.asp - 1) } ∧
    (afterHandler u).pc = s.addressStack.read (s.asp - 1) + 1 ∧ StepEnds (.ret o) s u

/-- R85. -/
def Obligations.JumpLandsOnTheBus : Prop :=
  ∀ (o : Operand) (s : State), ∃ u, exec (.jump o) s = .next u ∧
    u = { s with pc := busValue o s - 1 } ∧ (afterHandler u).pc = busValue o s ∧ StepEnds (.jump o) s u

/-- R86: taken, to `PR`, exactly when a mask bit meets a set flag; mask bits 15..6 meet none. -/
def Obligations.JumpcTestsTheMask : Prop :=
  ∀ (o : Operand) (s : State), ∃ u, exec (.jumpc o) s = .next u ∧ StepEnds (.jumpc o) s u ∧
    let b := busValue o s
    let taken := (s.flags.c && b.getLsbD 0) || (s.flags.p && b.getLsbD 1) || (s.flags.z && b.getLsbD 2) ||
      (s.flags.s && b.getLsbD 3) || (s.flags.v && b.getLsbD 4) || (s.flags.u && b.getLsbD 5)
    (taken = true ↔ (s.flags.toWord &&& b) ≠ 0#16) ∧
    (taken = true → u = { s with pc := s.pr - 1 } ∧ (afterHandler u).pc = s.pr) ∧
    (taken = false → u = s ∧ (afterHandler u).pc = s.pc + 1)

/-- A `call` and a matching `return` at its target, run as two steps, come back to the instruction after the call with
`ASP` as it was (spec/95_test_vectors.md W6). -/
def Obligations.CallThenReturnComesBack : Prop :=
  ∀ (s t r : State) (o o' : Operand), s.About (.call o) → step s = .next t → t.About (.ret o') → step t = .next r →
    t.pc = busValue o s ∧ t.addressStack.read (t.asp - 1) = s.pc ∧ r.pc = s.pc + 1 ∧ r.asp = s.asp

/-! ## Flags, logic, shifts, comparison -/

/-- R88: the handler clears all six flags; after the step C, V and U are clear and P, Z and S describe `ACC`. -/
def Obligations.ClfClearsThenRefreshes : Prop :=
  ∀ (o : Operand) (s : State), ∃ u, exec (.clf o) s = .next u ∧
    u = { s with flags := u.flags } ∧ u.flags.toWord = 0#16 ∧
    (afterHandler u).flags = ⟨false, xorFold s.acc, decide (s.acc = 0#16), s.acc.getLsbD 15, false, false⟩ ∧
    StepEnds (.clf o) s u

/-- R89, R90, R91, bit by bit. -/
def Obligations.LogicActsBitByBit : Prop :=
  ∀ (o : Operand) (s : State), ∃ a x e, exec (.and o) s = .next a ∧ exec (.or o) s = .next x ∧
    exec (.xor o) s = .next e ∧
    a = { s with acc := a.acc } ∧ x = { s with acc := x.acc } ∧ e = { s with acc := e.acc } ∧
    (∀ k, a.acc.getLsbD k = (s.acc.getLsbD k && (busValue o s).getLsbD k)) ∧
    (∀ k, x.acc.getLsbD k = (s.acc.getLsbD k || (busValue o s).getLsbD k)) ∧
    (∀ k, e.acc.getLsbD k = Bool.xor (s.acc.getLsbD k) ((busValue o s).getLsbD k)) ∧
    StepEnds (.and o) s a ∧ StepEnds (.or o) s x ∧ StepEnds (.xor o) s e

/-- `lsl` (spec/43_flags_logic_shift.md, R92): the product with a power of two reduced to 16 bits, zero from a count of
16 on (decision D8, log entry 7), and V assigned from the old top bit whatever the count (decision D6, log entry 5). -/
def Obligations.LslShiftsTheWholeCount : Prop :=
  ∀ (o : Operand) (s : State), ∃ u, exec (.lsl o) s = .next u ∧
    u = { s with acc := u.acc, flags := { s.flags with v := s.acc.getLsbD 15 } } ∧
    u.acc.toNat = s.acc.toNat * 2 ^ (busValue o s).toNat % 65536 ∧
    (16 ≤ (busValue o s).toNat → u.acc = 0#16) ∧ StepEnds (.lsl o) s u

/-- `lsr` (spec/43_flags_logic_shift.md, R93): floor division by a power of two, zero from a count of 16 on (decision D8,
log entry 7), and U assigned from the old bit 0 whatever the count (decision D6, log entry 5). -/
def Obligations.LsrShiftsTheWholeCount : Prop :=
  ∀ (o : Operand) (s : State), ∃ u, exec (.lsr o) s = .next u ∧
    u = { s with acc := u.acc, flags := { s.flags with u := s.acc.getLsbD 0 } } ∧
    u.acc.toNat = s.acc.toNat / 2 ^ (busValue o s).toNat ∧
    (16 ≤ (busValue o s).toNat → u.acc = 0#16) ∧ StepEnds (.lsr o) s u

/-- `rol` and `ror` (spec/43_flags_logic_shift.md, R94, R95): every bit moves by the count modulo 16 (decision D9, log
entry 8), no flag is written, and each undoes the other. -/
def Obligations.RotationsMoveEveryBit : Prop :=
  (∀ (o : Operand) (s : State), ∃ l r, exec (.rol o) s = .next l ∧ exec (.ror o) s = .next r ∧
    l = { s with acc := l.acc } ∧ r = { s with acc := r.acc } ∧
    (∀ k, k < 16 → l.acc.getLsbD ((k + (busValue o s).toNat) % 16) = s.acc.getLsbD k) ∧
    (∀ k, k < 16 → r.acc.getLsbD k = s.acc.getLsbD ((k + (busValue o s).toNat) % 16)) ∧
    StepEnds (.rol o) s l ∧ StepEnds (.ror o) s r) ∧
  ∀ (v : Word) (s l r : State), exec (.rol (.immediate v)) s = .next l → exec (.ror (.immediate v)) l = .next r → r = s

/-- R96: 65535, 0 or 1 as `ACC` is below, equal to or above the bus value, both unsigned; the handler writes no flag,
and the refresh tells the three cases apart. -/
def Obligations.CompOrdersUnsigned : Prop :=
  ∀ (o : Operand) (s : State), ∃ u, exec (.comp o) s = .next u ∧ u = { s with acc := u.acc } ∧
    (s.acc.toNat < (busValue o s).toNat → u.acc.toNat = 65535 ∧
      (afterHandler u).flags = { s.flags with p := false, z := false, s := true }) ∧
    (s.acc.toNat = (busValue o s).toNat → u.acc.toNat = 0 ∧
      (afterHandler u).flags = { s.flags with p := false, z := true, s := false }) ∧
    ((busValue o s).toNat < s.acc.toNat → u.acc.toNat = 1 ∧
      (afterHandler u).flags = { s.flags with p := true, z := false, s := false }) ∧
    StepEnds (.comp o) s u

/-! ## Arithmetic -/

/-- `add` and `sub` (spec/44_arithmetic.md, R97, R98): results modulo 65536, and C assigned the carry or the borrow
(assigned by decision D6, log entry 5). -/
def Obligations.AddAndSubWrapWithCarry : Prop :=
  ∀ (o : Operand) (s : State), ∃ a d, exec (.add o) s = .next a ∧ exec (.sub o) s = .next d ∧
    a = { s with acc := a.acc, flags := { s.flags with c := a.flags.c } } ∧
    d = { s with acc := d.acc, flags := { s.flags with c := d.flags.c } } ∧
    a.acc.toNat = (s.acc.toNat + (busValue o s).toNat) % 65536 ∧
    (a.flags.c = true ↔ 65535 < s.acc.toNat + (busValue o s).toNat) ∧
    d.acc.toNat = (s.acc.toNat + 65536 - (busValue o s).toNat) % 65536 ∧
    (d.flags.c = true ↔ s.acc.toNat < (busValue o s).toNat) ∧
    StepEnds (.add o) s a ∧ StepEnds (.sub o) s d

/-- `addc` and `subc` (spec/44_arithmetic.md, R99, R100): the old C is an extra addend, or an extra borrow (decision D7,
log entry 6), and C is assigned anew (decision D6, log entry 5). -/
def Obligations.AddcAndSubcConsumeTheCarry : Prop :=
  ∀ (o : Operand) (s : State), ∃ a d, exec (.addc o) s = .next a ∧ exec (.subc o) s = .next d ∧
    a = { s with acc := a.acc, flags := { s.flags with c := a.flags.c } } ∧
    d = { s with acc := d.acc, flags := { s.flags with c := d.flags.c } } ∧
    a.acc.toNat = (s.acc.toNat + (busValue o s).toNat + s.flags.c.toNat) % 65536 ∧
    (a.flags.c = true ↔ 65535 < s.acc.toNat + (busValue o s).toNat + s.flags.c.toNat) ∧
    d.acc.toNat = (s.acc.toNat + 131072 - (busValue o s).toNat - s.flags.c.toNat) % 65536 ∧
    (d.flags.c = true ↔ s.acc.toNat < (busValue o s).toNat + s.flags.c.toNat) ∧
    StepEnds (.addc o) s a ∧ StepEnds (.subc o) s d

/-- `inc` and `dec` (spec/44_arithmetic.md, R101, R102): one up or down, C assigned the wrap (decision D6, log entry
5). -/
def Obligations.IncAndDecWrapWithCarry : Prop :=
  ∀ (o : Operand) (s : State), ∃ a d, exec (.inc o) s = .next a ∧ exec (.dec o) s = .next d ∧
    a = { s with acc := s.acc + 1, flags := { s.flags with c := decide (s.acc = 65535#16) } } ∧
    d = { s with acc := s.acc - 1, flags := { s.flags with c := decide (s.acc = 0#16) } } ∧
    StepEnds (.inc o) s a ∧ StepEnds (.dec o) s d

/-- `mul` (spec/44_arithmetic.md, R103): the product modulo 65536, V assigned whether it exceeds 65535 (decision D6, log
entry 5), C untouched. -/
def Obligations.MulKeepsTheLowHalf : Prop :=
  ∀ (o : Operand) (s : State), ∃ u, exec (.mul o) s = .next u ∧
    u = { s with acc := u.acc, flags := { s.flags with v := u.flags.v } } ∧
    u.acc.toNat = s.acc.toNat * (busValue o s).toNat % 65536 ∧
    (u.flags.v = true ↔ 65535 < s.acc.toNat * (busValue o s).toNat) ∧ StepEnds (.mul o) s u

/-- `div` and `mod` by a nonzero divisor (spec/44_arithmetic.md, R104 to R106): quotient and remainder of unsigned floor
division, no flag written. -/
def Obligations.DivAndModByNonzero : Prop :=
  ∀ (o : Operand) (s : State), busValue o s ≠ 0#16 →
    ∃ q r, exec (.div o) s = .next q ∧ exec (.mod o) s = .next r ∧
      q = { s with acc := q.acc } ∧ r = { s with acc := r.acc } ∧
      s.acc.toNat = (busValue o s).toNat * q.acc.toNat + r.acc.toNat ∧ r.acc.toNat < (busValue o s).toNat ∧
      StepEnds (.div o) s q ∧ StepEnds (.mod o) s r

/-- `div` and `mod` by zero raise `DivideByZero` (spec/60_exceptions.md, R114; the trap is decision D3, log entry 3): the
handler changes nothing but the stop state, and the count, refresh and advance follow. -/
def Obligations.DivAndModByZeroStop : Prop :=
  ∀ (o : Operand) (s : State), busValue o s = 0#16 →
    let u := { s with running := false, exitCode := s.params.divZeroExitCode }
    exec (.div o) s = .next u ∧ exec (.mod o) s = .next u ∧ StepEnds (.div o) s u ∧ StepEnds (.mod o) s u

/-- `add` on the low halves and `addc` on the high halves add 32-bit numbers, and `sub` with `subc` subtracts them
(spec/44_arithmetic.md, the example of R99). That `subc` reads a borrow is decision D7 (log entry 6); that `add` and `sub`
clear a C that was set before is decision D6 (log entry 5). -/
def Obligations.CarryChainsAddThirtyTwoBits : Prop :=
  ∀ (s lo hi lo' hi' : State) (a0 a1 b0 b1 : Word),
    exec (.add (.immediate b0)) { s with acc := a0 } = .next lo →
    exec (.addc (.immediate b1)) { lo with acc := a1 } = .next hi →
    exec (.sub (.immediate b0)) { s with acc := a0 } = .next lo' →
    exec (.subc (.immediate b1)) { lo' with acc := a1 } = .next hi' →
    (hi.acc ++ lo.acc : BitVec 32) = (a1 ++ a0 : BitVec 32) + (b1 ++ b0 : BitVec 32) ∧
    (hi'.acc ++ lo'.acc : BitVec 32) = (a1 ++ a0 : BitVec 32) - (b1 ++ b0 : BitVec 32)

/-! ## Ports and stops -/

/-- R107. -/
def Obligations.PortwWritesTheNamedPort : Prop :=
  ∀ (o : Operand) (s : State), ∃ u, exec (.portw o) s = .next u ∧
    u = { s with ports := u.ports } ∧ OneCellWritten s.ports u.ports (busValue o s) s.acc ∧
    StepEnds (.portw o) s u

/-- `portr` (spec/45_port_system.md, R108): `ACC` takes the port's cell, and reading changes nothing else. -/
def Obligations.PortrReadsTheNamedPort : Prop :=
  ∀ (o : Operand) (s : State), ∃ u, exec (.portr o) s = .next u ∧
    u = { s with acc := s.ports.read (busValue o s) } ∧ StepEnds (.portr o) s u

/-- R109, R110: `int` stops with the bus value as a non-negative exit code, `halt` with 0; after the step `PC` is one
past the stopping instruction. -/
def Obligations.IntAndHaltStop : Prop :=
  ∀ (o : Operand) (s : State), ∃ i h, exec (.int o) s = .next i ∧ exec (.halt o) s = .next h ∧
    i = { s with running := false, exitCode := ((busValue o s).toNat : Int) } ∧
    h = { s with running := false, exitCode := 0 } ∧
    (afterHandler i).pc = s.pc + 1 ∧ (afterHandler h).pc = s.pc + 1 ∧
    StepEnds (.int o) s i ∧ StepEnds (.halt o) s h

/-! ## The host -/

/-- `initialize_memory` puts every piece of core state back to its reset value, from any stopped state
(spec/70_reset_and_hazards.md, R131; `running`, `exit_code` and the count by decision D12, log entry 9). The model's
choice, not R131's words: that the import's status goes back to blank (log entry 14) and that the pending moves stay (log
entry 12). The machine's parameters stay: the reset leaves the dispatch table unchanged (R63, R131). -/
def Obligations.InitializeMemoryResets : Prop :=
  ∀ (s : State) (rest : List HostMove), s.running = false → s.hostMoves = .initializeMemory :: rest →
    step s = .next { State.resetWith s.params with hostMoves := rest }

/-- The host's `run` sets `running` and zeroes the count and touches nothing else of the core, after any stop and before any
import, but starts nothing once an import has failed; a run with nothing imported ends the time for an import; a port
write changes one port cell; with no move pending a stopped core stays as it is (spec/40_dispatch_engine.md,
spec/60_exceptions.md, spec/70_reset_and_hazards.md; decisions D4, D11, D16; log entries 12, 13, 14, 15, 18). -/
def Obligations.HostMovesBetweenRuns : Prop :=
  ∀ (s : State) (rest : List HostMove) (p v : Word), s.running = false →
    (s.hostMoves = .run :: rest → s.imageStatus ≠ .failed →
      step s = .next { s with
        running := true
        instructionsExecuted := 0
        imageStatus := if s.imageStatus = .blank then .closed else s.imageStatus
        hostMoves := rest }) ∧
    (s.hostMoves = .run :: rest → s.imageStatus = .failed → step s = .next { s with hostMoves := rest }) ∧
    (s.hostMoves = .writePort p v :: rest →
      ∃ t, step s = .next t ∧ t = { s with ports := t.ports, hostMoves := rest } ∧ OneCellWritten s.ports t.ports p v) ∧
    (s.hostMoves = [] → step s = .next s)

/-- Importing a well-formed image of at most 65536 records into an empty ROM stores one unmasked word per record in
order, big-endian in the value, bits 7..1 of byte 0 ignored, and nothing else (spec/30_encoding.md, R57 to R59; decision
D20, log entry 19). The import status is blank only from a reset to the first import or run, the place of the import in the
boot order (spec/70_reset_and_hazards.md, R132; log entries 14 and 15). -/
def Obligations.ImportStoresEveryRecord : Prop :=
  ∀ (s : State) (rest : List HostMove) (records : List (Byte × Byte × Byte × Byte)),
    s.running = false → s.imageStatus = .blank → s.rom = [] → records.length ≤ 65536 →
    s.hostMoves =
      .importCode ([0x51#8, 0x54#8, 0x00#8] ++ records.flatMap fun b => [b.1, b.2.1, b.2.2.1, b.2.2.2]) :: rest →
    ∃ t, step s = .next t ∧ t = { s with rom := t.rom, imageStatus := .loaded, hostMoves := rest } ∧
      ∀ a : Word, (t.rom.read a).toNat =
        match records[a.toNat]? with
        | some b => encodeRaw (b.1.toNat % 2) (b.2.1.toNat * 256 + b.2.2.1.toNat) b.2.2.2.toNat
        | none => 0

/-- A stream with no NUL, a tag other than `QT`, a truncated last record or more than 65536 records is a load error:
nothing is imported and the core is barred from running; a second import, and an import after a run, is refused and changes
nothing (spec/30_encoding.md, R58 to R60; spec/70_reset_and_hazards.md, R132; decisions D4, D20, D21; log entries 14 and
15). -/
def Obligations.BadImagesAreLoadErrors : Prop :=
  ∀ (s : State) (rest : List HostMove) (image : List Byte),
    s.running = false → s.hostMoves = .importCode image :: rest →
    (s.imageStatus = .blank →
      (0x00#8 ∉ image ∨ ∃ tag body : List Byte, 0x00#8 ∉ tag ∧ image = tag ++ 0x00#8 :: body ∧
        (tag ≠ [0x51#8, 0x54#8] ∨ body.length % 4 ≠ 0 ∨ 65536 < body.length / 4)) →
      step s = .next { s with imageStatus := .failed, hostMoves := rest }) ∧
    (s.imageStatus ≠ .blank → step s = .next { s with hostMoves := rest })

/-- A run that ends has taken some number `n ≥ 1` of steps, all of them before the last with the run still on; it ends
right after the first step that stopped, with `n` instructions counted (spec/40_dispatch_engine.md R64,
spec/70_reset_and_hazards.md R139). -/
def Obligations.RunEndsAtItsFirstStop : Prop :=
  ∀ (k : Nat) (s t : State), s.running = true → runUntilStop k s = some t →
    ∃ n, 1 ≤ n ∧ n ≤ k ∧ Host.Core.run core n s = .next t ∧ t.running = false ∧
      t.instructionsExecuted = s.instructionsExecuted + n ∧
      ∀ j, j < n → ∃ r, Host.Core.run core j s = .next r ∧ r.running = true

/-- The dump is four flat sequences of 65536 values, cell `a` at place `a`, and is there exactly while no run is in
progress (spec/60_exceptions.md, R128; spec/20_memory.md, R42). -/
def Obligations.DumpShowsEveryCell : Prop :=
  ∀ s : State, (s.running = true → hostDump s = none) ∧
    (s.running = false → ∃ d, hostDump s = some d ∧
      d.cache.length = 65536 ∧ d.valueStack.length = 65536 ∧ d.addressStack.length = 65536 ∧ d.ports.length = 65536 ∧
      ∀ a : Word, d.cache[a.toNat]? = some (s.cache.read a) ∧ d.valueStack[a.toNat]? = some (s.valueStack.read a) ∧
        d.addressStack[a.toNat]? = some (s.addressStack.read a) ∧ d.ports[a.toNat]? = some (s.ports.read a))
end

