-- ==== Sys2Proof/Laws/Arith.lean ====
section
/-! SUPPORT. What the flag computations and the exact results come to, in numbers and bit by bit (spec/00_scope.md R6,
spec/10_state.md R19, R20). -/

namespace Sys2Proof.Machine

/-- A bit of `F` is the flag of its place, and bits from 6 on are 0 (R19). -/
theorem Flags.toWord_getLsbD (f : Flags) (k : Nat) :
    f.toWord.getLsbD k =
      match k with
      | 0 => f.c
      | 1 => f.p
      | 2 => f.z
      | 3 => f.s
      | 4 => f.v
      | 5 => f.u
      | _ => false := by
  obtain ⟨c, p, z, s, v, u⟩ := f
  match k with
  | 0 | 1 | 2 | 3 | 4 | 5 => revert c p z s v u; decide
  | k + 6 =>
    by_cases h : k + 6 < 16
    · have hk : k < 10 := by omega
      revert c p z s v u
      interval_cases k <;> decide
    · exact BitVec.getLsbD_of_ge _ _ (by omega)

theorem wrap16_toNat (n : Int) : (wrap16 n).toNat = (n % 65536).toNat := by
  simp [wrap16, BitVec.toNat_ofInt]

theorem exactSum_eq (a b : Word) (c : Bool) : exactSum a b c = ((a.toNat + b.toNat + c.toNat : Nat) : Int) := by
  simp [exactSum, carryIn]

theorem putSum_acc_toNat (s : State) (a b : Word) (c : Bool) :
    (s.putSum (exactSum a b c)).acc.toNat = (a.toNat + b.toNat + c.toNat) % 65536 := by
  show (wrap16 _).toNat = _
  rw [wrap16_toNat, exactSum_eq]
  omega

theorem above16_exactSum (a b : Word) (c : Bool) :
    above16 (exactSum a b c) = true ↔ 65535 < a.toNat + b.toNat + c.toNat := by
  rw [exactSum_eq, above16]
  simp only [decide_eq_true_eq]
  omega

theorem putDifference_acc_toNat (s : State) (a b : Word) (c : Bool) :
    (s.putDifference (exactDifference a b c)).acc.toNat =
      (a.toNat + 131072 - b.toNat - c.toNat) % 65536 := by
  show (wrap16 _).toNat = _
  rw [wrap16_toNat, exactDifference, carryIn]
  have := a.isLt
  have := b.isLt
  have : c.toNat ≤ 1 := by cases c <;> decide
  omega

theorem below0_exactDifference (a b : Word) (c : Bool) :
    below0 (exactDifference a b c) = true ↔ a.toNat < b.toNat + c.toNat := by
  rw [exactDifference, carryIn, below0]
  simp only [decide_eq_true_eq]
  omega

theorem exactProduct_eq (a b : Word) : exactProduct a b = ((a.toNat * b.toNat : Nat) : Int) := by
  simp [exactProduct]

theorem putProduct_acc_toNat (s : State) (a b : Word) :
    (s.putProduct (exactProduct a b)).acc.toNat = a.toNat * b.toNat % 65536 := by
  show (wrap16 _).toNat = _
  rw [wrap16_toNat, exactProduct_eq]
  omega

theorem above16_exactProduct (a b : Word) :
    above16 (exactProduct a b) = true ↔ 65535 < a.toNat * b.toNat := by
  rw [exactProduct_eq, above16]
  simp only [decide_eq_true_eq]
  omega

theorem shiftLeft_toNat (a : Word) (n : Nat) : (shiftLeft a n).toNat = a.toNat * 2 ^ n % 65536 := by
  simp [shiftLeft, Nat.shiftLeft_eq]

theorem shiftRight_toNat (a : Word) (n : Nat) : (shiftRight a n).toNat = a.toNat / 2 ^ n := by
  have h : a.toNat / 2 ^ n < 65536 := lt_of_le_of_lt (Nat.div_le_self _ _) a.isLt
  simp [shiftRight, Nat.shiftRight_eq_div_pow, Nat.mod_eq_of_lt h]

theorem shiftLeft_getLsbD (a : Word) (n k : Nat) :
    (shiftLeft a n).getLsbD k = (decide (k < 16) && decide (n ≤ k) && a.getLsbD (k - n)) := by
  rw [shiftLeft, BitVec.getLsbD_ofNat, Nat.testBit_shiftLeft, Bool.and_assoc]
  rfl

theorem shiftRight_getLsbD (a : Word) (n k : Nat) : (shiftRight a n).getLsbD k = a.getLsbD (n + k) := by
  rw [shiftRight, BitVec.getLsbD_ofNat, Nat.testBit_shiftRight]
  by_cases hk : k < 16
  · simp [hk, BitVec.getLsbD]
  · rw [BitVec.getLsbD_of_ge a _ (by omega)]
    simp [hk]

end Sys2Proof.Machine
end

