-- ==== Sys2Proof/Laws/Decode.lean ====
section
/-! SUPPORT. What the encoder's word is as a number, when two field triples are equal, and what the search through a
numbering finds (spec/30_encoding.md R47, R48, R52); a numbering as the value of a parameter (spec/00_scope.md R5). -/

namespace Sys2Proof

theorem Mnemonic.mem_all (n : Mnemonic) : n ∈ Mnemonic.all := by cases n <;> decide

/-- The word of a triple whose fields leave the opcode at most the bit it shares with `V`. -/
theorem encodeTriple_toNat {m v op : Nat} (hm : m < 2) (hv : v < 65536) (ho : op < 256) :
    (encodeTriple ⟨m, v, op⟩).toNat = m * 2 ^ 23 + (v * 2 ^ 7 ||| op) := by
  have h : v * 2 ^ 7 ||| op < 2 ^ 23 := Nat.or_lt_two_pow (by omega) (by omega)
  simp only [encodeTriple, encodeRaw, BitVec.toNat_ofNat, Nat.or_assoc, Nat.shiftLeft_eq]
  rw [Nat.mod_eq_of_lt (Nat.or_lt_two_pow (by omega) (by omega)), ← Nat.shiftLeft_eq,
    ← Nat.shiftLeft_add_eq_or_of_lt h, Nat.shiftLeft_eq]

/-- A 7-bit opcode does not meet the value field. -/
theorem value_or_opcode {v op : Nat} (ho : op < 128) : v * 2 ^ 7 ||| op = v * 2 ^ 7 + op := by
  rw [← Nat.shiftLeft_eq, Nat.shiftLeft_add_eq_or_of_lt (i := 7) ho]

theorem Fields.ext_toNat {d e : Fields} (hm : d.m.toNat = e.m.toNat) (hv : d.v.toNat = e.v.toNat)
    (hop : d.op.toNat = e.op.toNat) : d = e := by
  obtain ⟨dm, dv, dop⟩ := d
  obtain ⟨em, ev, eop⟩ := e
  have h1 : dv = ev := BitVec.eq_of_toNat_eq hv
  have h2 : dop = eop := BitVec.eq_of_toNat_eq hop
  have h3 : dm = em := by cases dm <;> cases em <;> simp_all
  rw [h1, h2, h3]

/-- What the slot search finds has the slot's number. -/
theorem dispatchSlot_some {f : OpcodeMap} {op : Opcode} {n : Mnemonic} (h : dispatchSlot f op = some n) : f n = op := by
  simpa using List.find?_some h

/-- Every numbering is the value of some parameter. -/
@[simp] theorem OpcodeMap.ofNumbers_numbers (f : OpcodeMap) : OpcodeMap.ofNumbers f.numbers = f := by
  funext n
  cases n <;> rfl

@[simp] theorem Machine.defaultParams_opcodeMap : Machine.defaultParams.opcodeMap = defaultOpcodeMap :=
  OpcodeMap.ofNumbers_numbers defaultOpcodeMap

theorem Config.Params.wellFormed_iff (p : Config.Params) :
    p.wellFormed = true ↔ p.opcodeMap.admissible = true ∧ p.trapCodeOk = true ∧ p.divZeroCodeOk = true := by
  simp [Config.Params.wellFormed, and_assoc]

@[simp] theorem Operand.ofFields_flag_value (o : Operand) : Operand.ofFields o.flag o.value = o := by
  cases o <;> rfl

@[simp] theorem Operand.flag_ofFields (m : Bool) (v : Word) : (Operand.ofFields m v).flag = m := by
  cases m <;> rfl

@[simp] theorem Operand.value_ofFields (m : Bool) (v : Word) : (Operand.ofFields m v).value = v := by
  cases m <;> rfl

@[simp] theorem Instr.mnemonic_ofMnemonic (n : Mnemonic) (o : Operand) : (Instr.ofMnemonic n o).mnemonic = n := by
  cases n <;> rfl

@[simp] theorem Instr.operand_ofMnemonic (n : Mnemonic) (o : Operand) : (Instr.ofMnemonic n o).operand = o := by
  cases n <;> rfl

end Sys2Proof
end

