-- ==== Sys2Proof/Laws/State.lean ====
section
/-! SUPPORT. One lemma per field of State and update of it: what the update leaves in the field. No proof needs to
unfold an update. -/

namespace Sys2Proof.Machine.State

variable (s : State)

@[simp] theorem setAcc_acc (v : Word) : (s.setAcc v).acc = v := rfl
@[simp] theorem setAcc_pr (v : Word) : (s.setAcc v).pr = s.pr := rfl
@[simp] theorem setAcc_pc (v : Word) : (s.setAcc v).pc = s.pc := rfl
@[simp] theorem setAcc_sp (v : Word) : (s.setAcc v).sp = s.sp := rfl
@[simp] theorem setAcc_asp (v : Word) : (s.setAcc v).asp = s.asp := rfl
@[simp] theorem setAcc_flags (v : Word) : (s.setAcc v).flags = s.flags := rfl
@[simp] theorem setAcc_rom (v : Word) : (s.setAcc v).rom = s.rom := rfl
@[simp] theorem setAcc_cache (v : Word) : (s.setAcc v).cache = s.cache := rfl
@[simp] theorem setAcc_valueStack (v : Word) : (s.setAcc v).valueStack = s.valueStack := rfl
@[simp] theorem setAcc_addressStack (v : Word) : (s.setAcc v).addressStack = s.addressStack := rfl
@[simp] theorem setAcc_ports (v : Word) : (s.setAcc v).ports = s.ports := rfl
@[simp] theorem setAcc_running (v : Word) : (s.setAcc v).running = s.running := rfl
@[simp] theorem setAcc_exitCode (v : Word) : (s.setAcc v).exitCode = s.exitCode := rfl
@[simp] theorem setAcc_instructionsExecuted (v : Word) : (s.setAcc v).instructionsExecuted = s.instructionsExecuted := rfl
@[simp] theorem setAcc_imageStatus (v : Word) : (s.setAcc v).imageStatus = s.imageStatus := rfl
@[simp] theorem setAcc_hostMoves (v : Word) : (s.setAcc v).hostMoves = s.hostMoves := rfl
@[simp] theorem setAcc_params (v : Word) : (s.setAcc v).params = s.params := rfl

@[simp] theorem setPr_acc (v : Word) : (s.setPr v).acc = s.acc := rfl
@[simp] theorem setPr_pr (v : Word) : (s.setPr v).pr = v := rfl
@[simp] theorem setPr_pc (v : Word) : (s.setPr v).pc = s.pc := rfl
@[simp] theorem setPr_sp (v : Word) : (s.setPr v).sp = s.sp := rfl
@[simp] theorem setPr_asp (v : Word) : (s.setPr v).asp = s.asp := rfl
@[simp] theorem setPr_flags (v : Word) : (s.setPr v).flags = s.flags := rfl
@[simp] theorem setPr_rom (v : Word) : (s.setPr v).rom = s.rom := rfl
@[simp] theorem setPr_cache (v : Word) : (s.setPr v).cache = s.cache := rfl
@[simp] theorem setPr_valueStack (v : Word) : (s.setPr v).valueStack = s.valueStack := rfl
@[simp] theorem setPr_addressStack (v : Word) : (s.setPr v).addressStack = s.addressStack := rfl
@[simp] theorem setPr_ports (v : Word) : (s.setPr v).ports = s.ports := rfl
@[simp] theorem setPr_running (v : Word) : (s.setPr v).running = s.running := rfl
@[simp] theorem setPr_exitCode (v : Word) : (s.setPr v).exitCode = s.exitCode := rfl
@[simp] theorem setPr_instructionsExecuted (v : Word) : (s.setPr v).instructionsExecuted = s.instructionsExecuted := rfl
@[simp] theorem setPr_imageStatus (v : Word) : (s.setPr v).imageStatus = s.imageStatus := rfl
@[simp] theorem setPr_hostMoves (v : Word) : (s.setPr v).hostMoves = s.hostMoves := rfl
@[simp] theorem setPr_params (v : Word) : (s.setPr v).params = s.params := rfl

@[simp] theorem setPc_acc (v : Word) : (s.setPc v).acc = s.acc := rfl
@[simp] theorem setPc_pr (v : Word) : (s.setPc v).pr = s.pr := rfl
@[simp] theorem setPc_pc (v : Word) : (s.setPc v).pc = v := rfl
@[simp] theorem setPc_sp (v : Word) : (s.setPc v).sp = s.sp := rfl
@[simp] theorem setPc_asp (v : Word) : (s.setPc v).asp = s.asp := rfl
@[simp] theorem setPc_flags (v : Word) : (s.setPc v).flags = s.flags := rfl
@[simp] theorem setPc_rom (v : Word) : (s.setPc v).rom = s.rom := rfl
@[simp] theorem setPc_cache (v : Word) : (s.setPc v).cache = s.cache := rfl
@[simp] theorem setPc_valueStack (v : Word) : (s.setPc v).valueStack = s.valueStack := rfl
@[simp] theorem setPc_addressStack (v : Word) : (s.setPc v).addressStack = s.addressStack := rfl
@[simp] theorem setPc_ports (v : Word) : (s.setPc v).ports = s.ports := rfl
@[simp] theorem setPc_running (v : Word) : (s.setPc v).running = s.running := rfl
@[simp] theorem setPc_exitCode (v : Word) : (s.setPc v).exitCode = s.exitCode := rfl
@[simp] theorem setPc_instructionsExecuted (v : Word) : (s.setPc v).instructionsExecuted = s.instructionsExecuted := rfl
@[simp] theorem setPc_imageStatus (v : Word) : (s.setPc v).imageStatus = s.imageStatus := rfl
@[simp] theorem setPc_hostMoves (v : Word) : (s.setPc v).hostMoves = s.hostMoves := rfl
@[simp] theorem setPc_params (v : Word) : (s.setPc v).params = s.params := rfl

@[simp] theorem setSp_acc (v : Word) : (s.setSp v).acc = s.acc := rfl
@[simp] theorem setSp_pr (v : Word) : (s.setSp v).pr = s.pr := rfl
@[simp] theorem setSp_pc (v : Word) : (s.setSp v).pc = s.pc := rfl
@[simp] theorem setSp_sp (v : Word) : (s.setSp v).sp = v := rfl
@[simp] theorem setSp_asp (v : Word) : (s.setSp v).asp = s.asp := rfl
@[simp] theorem setSp_flags (v : Word) : (s.setSp v).flags = s.flags := rfl
@[simp] theorem setSp_rom (v : Word) : (s.setSp v).rom = s.rom := rfl
@[simp] theorem setSp_cache (v : Word) : (s.setSp v).cache = s.cache := rfl
@[simp] theorem setSp_valueStack (v : Word) : (s.setSp v).valueStack = s.valueStack := rfl
@[simp] theorem setSp_addressStack (v : Word) : (s.setSp v).addressStack = s.addressStack := rfl
@[simp] theorem setSp_ports (v : Word) : (s.setSp v).ports = s.ports := rfl
@[simp] theorem setSp_running (v : Word) : (s.setSp v).running = s.running := rfl
@[simp] theorem setSp_exitCode (v : Word) : (s.setSp v).exitCode = s.exitCode := rfl
@[simp] theorem setSp_instructionsExecuted (v : Word) : (s.setSp v).instructionsExecuted = s.instructionsExecuted := rfl
@[simp] theorem setSp_imageStatus (v : Word) : (s.setSp v).imageStatus = s.imageStatus := rfl
@[simp] theorem setSp_hostMoves (v : Word) : (s.setSp v).hostMoves = s.hostMoves := rfl
@[simp] theorem setSp_params (v : Word) : (s.setSp v).params = s.params := rfl

@[simp] theorem setAsp_acc (v : Word) : (s.setAsp v).acc = s.acc := rfl
@[simp] theorem setAsp_pr (v : Word) : (s.setAsp v).pr = s.pr := rfl
@[simp] theorem setAsp_pc (v : Word) : (s.setAsp v).pc = s.pc := rfl
@[simp] theorem setAsp_sp (v : Word) : (s.setAsp v).sp = s.sp := rfl
@[simp] theorem setAsp_asp (v : Word) : (s.setAsp v).asp = v := rfl
@[simp] theorem setAsp_flags (v : Word) : (s.setAsp v).flags = s.flags := rfl
@[simp] theorem setAsp_rom (v : Word) : (s.setAsp v).rom = s.rom := rfl
@[simp] theorem setAsp_cache (v : Word) : (s.setAsp v).cache = s.cache := rfl
@[simp] theorem setAsp_valueStack (v : Word) : (s.setAsp v).valueStack = s.valueStack := rfl
@[simp] theorem setAsp_addressStack (v : Word) : (s.setAsp v).addressStack = s.addressStack := rfl
@[simp] theorem setAsp_ports (v : Word) : (s.setAsp v).ports = s.ports := rfl
@[simp] theorem setAsp_running (v : Word) : (s.setAsp v).running = s.running := rfl
@[simp] theorem setAsp_exitCode (v : Word) : (s.setAsp v).exitCode = s.exitCode := rfl
@[simp] theorem setAsp_instructionsExecuted (v : Word) : (s.setAsp v).instructionsExecuted = s.instructionsExecuted := rfl
@[simp] theorem setAsp_imageStatus (v : Word) : (s.setAsp v).imageStatus = s.imageStatus := rfl
@[simp] theorem setAsp_hostMoves (v : Word) : (s.setAsp v).hostMoves = s.hostMoves := rfl
@[simp] theorem setAsp_params (v : Word) : (s.setAsp v).params = s.params := rfl

@[simp] theorem setFlags_acc (f : Flags) : (s.setFlags f).acc = s.acc := rfl
@[simp] theorem setFlags_pr (f : Flags) : (s.setFlags f).pr = s.pr := rfl
@[simp] theorem setFlags_pc (f : Flags) : (s.setFlags f).pc = s.pc := rfl
@[simp] theorem setFlags_sp (f : Flags) : (s.setFlags f).sp = s.sp := rfl
@[simp] theorem setFlags_asp (f : Flags) : (s.setFlags f).asp = s.asp := rfl
@[simp] theorem setFlags_flags (f : Flags) : (s.setFlags f).flags = f := rfl
@[simp] theorem setFlags_rom (f : Flags) : (s.setFlags f).rom = s.rom := rfl
@[simp] theorem setFlags_cache (f : Flags) : (s.setFlags f).cache = s.cache := rfl
@[simp] theorem setFlags_valueStack (f : Flags) : (s.setFlags f).valueStack = s.valueStack := rfl
@[simp] theorem setFlags_addressStack (f : Flags) : (s.setFlags f).addressStack = s.addressStack := rfl
@[simp] theorem setFlags_ports (f : Flags) : (s.setFlags f).ports = s.ports := rfl
@[simp] theorem setFlags_running (f : Flags) : (s.setFlags f).running = s.running := rfl
@[simp] theorem setFlags_exitCode (f : Flags) : (s.setFlags f).exitCode = s.exitCode := rfl
@[simp] theorem setFlags_instructionsExecuted (f : Flags) : (s.setFlags f).instructionsExecuted = s.instructionsExecuted := rfl
@[simp] theorem setFlags_imageStatus (f : Flags) : (s.setFlags f).imageStatus = s.imageStatus := rfl
@[simp] theorem setFlags_hostMoves (f : Flags) : (s.setFlags f).hostMoves = s.hostMoves := rfl
@[simp] theorem setFlags_params (f : Flags) : (s.setFlags f).params = s.params := rfl

@[simp] theorem setCarry_acc (b : Bool) : (s.setCarry b).acc = s.acc := rfl
@[simp] theorem setCarry_pr (b : Bool) : (s.setCarry b).pr = s.pr := rfl
@[simp] theorem setCarry_pc (b : Bool) : (s.setCarry b).pc = s.pc := rfl
@[simp] theorem setCarry_sp (b : Bool) : (s.setCarry b).sp = s.sp := rfl
@[simp] theorem setCarry_asp (b : Bool) : (s.setCarry b).asp = s.asp := rfl
@[simp] theorem setCarry_flags (b : Bool) : (s.setCarry b).flags = { s.flags with c := b } := rfl
@[simp] theorem setCarry_rom (b : Bool) : (s.setCarry b).rom = s.rom := rfl
@[simp] theorem setCarry_cache (b : Bool) : (s.setCarry b).cache = s.cache := rfl
@[simp] theorem setCarry_valueStack (b : Bool) : (s.setCarry b).valueStack = s.valueStack := rfl
@[simp] theorem setCarry_addressStack (b : Bool) : (s.setCarry b).addressStack = s.addressStack := rfl
@[simp] theorem setCarry_ports (b : Bool) : (s.setCarry b).ports = s.ports := rfl
@[simp] theorem setCarry_running (b : Bool) : (s.setCarry b).running = s.running := rfl
@[simp] theorem setCarry_exitCode (b : Bool) : (s.setCarry b).exitCode = s.exitCode := rfl
@[simp] theorem setCarry_instructionsExecuted (b : Bool) : (s.setCarry b).instructionsExecuted = s.instructionsExecuted := rfl
@[simp] theorem setCarry_imageStatus (b : Bool) : (s.setCarry b).imageStatus = s.imageStatus := rfl
@[simp] theorem setCarry_hostMoves (b : Bool) : (s.setCarry b).hostMoves = s.hostMoves := rfl
@[simp] theorem setCarry_params (b : Bool) : (s.setCarry b).params = s.params := rfl

@[simp] theorem setOverflow_acc (b : Bool) : (s.setOverflow b).acc = s.acc := rfl
@[simp] theorem setOverflow_pr (b : Bool) : (s.setOverflow b).pr = s.pr := rfl
@[simp] theorem setOverflow_pc (b : Bool) : (s.setOverflow b).pc = s.pc := rfl
@[simp] theorem setOverflow_sp (b : Bool) : (s.setOverflow b).sp = s.sp := rfl
@[simp] theorem setOverflow_asp (b : Bool) : (s.setOverflow b).asp = s.asp := rfl
@[simp] theorem setOverflow_flags (b : Bool) : (s.setOverflow b).flags = { s.flags with v := b } := rfl
@[simp] theorem setOverflow_rom (b : Bool) : (s.setOverflow b).rom = s.rom := rfl
@[simp] theorem setOverflow_cache (b : Bool) : (s.setOverflow b).cache = s.cache := rfl
@[simp] theorem setOverflow_valueStack (b : Bool) : (s.setOverflow b).valueStack = s.valueStack := rfl
@[simp] theorem setOverflow_addressStack (b : Bool) : (s.setOverflow b).addressStack = s.addressStack := rfl
@[simp] theorem setOverflow_ports (b : Bool) : (s.setOverflow b).ports = s.ports := rfl
@[simp] theorem setOverflow_running (b : Bool) : (s.setOverflow b).running = s.running := rfl
@[simp] theorem setOverflow_exitCode (b : Bool) : (s.setOverflow b).exitCode = s.exitCode := rfl
@[simp] theorem setOverflow_instructionsExecuted (b : Bool) : (s.setOverflow b).instructionsExecuted = s.instructionsExecuted := rfl
@[simp] theorem setOverflow_imageStatus (b : Bool) : (s.setOverflow b).imageStatus = s.imageStatus := rfl
@[simp] theorem setOverflow_hostMoves (b : Bool) : (s.setOverflow b).hostMoves = s.hostMoves := rfl
@[simp] theorem setOverflow_params (b : Bool) : (s.setOverflow b).params = s.params := rfl

@[simp] theorem setUnderflow_acc (b : Bool) : (s.setUnderflow b).acc = s.acc := rfl
@[simp] theorem setUnderflow_pr (b : Bool) : (s.setUnderflow b).pr = s.pr := rfl
@[simp] theorem setUnderflow_pc (b : Bool) : (s.setUnderflow b).pc = s.pc := rfl
@[simp] theorem setUnderflow_sp (b : Bool) : (s.setUnderflow b).sp = s.sp := rfl
@[simp] theorem setUnderflow_asp (b : Bool) : (s.setUnderflow b).asp = s.asp := rfl
@[simp] theorem setUnderflow_flags (b : Bool) : (s.setUnderflow b).flags = { s.flags with u := b } := rfl
@[simp] theorem setUnderflow_rom (b : Bool) : (s.setUnderflow b).rom = s.rom := rfl
@[simp] theorem setUnderflow_cache (b : Bool) : (s.setUnderflow b).cache = s.cache := rfl
@[simp] theorem setUnderflow_valueStack (b : Bool) : (s.setUnderflow b).valueStack = s.valueStack := rfl
@[simp] theorem setUnderflow_addressStack (b : Bool) : (s.setUnderflow b).addressStack = s.addressStack := rfl
@[simp] theorem setUnderflow_ports (b : Bool) : (s.setUnderflow b).ports = s.ports := rfl
@[simp] theorem setUnderflow_running (b : Bool) : (s.setUnderflow b).running = s.running := rfl
@[simp] theorem setUnderflow_exitCode (b : Bool) : (s.setUnderflow b).exitCode = s.exitCode := rfl
@[simp] theorem setUnderflow_instructionsExecuted (b : Bool) : (s.setUnderflow b).instructionsExecuted = s.instructionsExecuted := rfl
@[simp] theorem setUnderflow_imageStatus (b : Bool) : (s.setUnderflow b).imageStatus = s.imageStatus := rfl
@[simp] theorem setUnderflow_hostMoves (b : Bool) : (s.setUnderflow b).hostMoves = s.hostMoves := rfl
@[simp] theorem setUnderflow_params (b : Bool) : (s.setUnderflow b).params = s.params := rfl

@[simp] theorem writeCache_acc (a v : Word) : (s.writeCache a v).acc = s.acc := rfl
@[simp] theorem writeCache_pr (a v : Word) : (s.writeCache a v).pr = s.pr := rfl
@[simp] theorem writeCache_pc (a v : Word) : (s.writeCache a v).pc = s.pc := rfl
@[simp] theorem writeCache_sp (a v : Word) : (s.writeCache a v).sp = s.sp := rfl
@[simp] theorem writeCache_asp (a v : Word) : (s.writeCache a v).asp = s.asp := rfl
@[simp] theorem writeCache_flags (a v : Word) : (s.writeCache a v).flags = s.flags := rfl
@[simp] theorem writeCache_rom (a v : Word) : (s.writeCache a v).rom = s.rom := rfl
@[simp] theorem writeCache_cache (a v : Word) : (s.writeCache a v).cache = s.cache.write a v := rfl
@[simp] theorem writeCache_valueStack (a v : Word) : (s.writeCache a v).valueStack = s.valueStack := rfl
@[simp] theorem writeCache_addressStack (a v : Word) : (s.writeCache a v).addressStack = s.addressStack := rfl
@[simp] theorem writeCache_ports (a v : Word) : (s.writeCache a v).ports = s.ports := rfl
@[simp] theorem writeCache_running (a v : Word) : (s.writeCache a v).running = s.running := rfl
@[simp] theorem writeCache_exitCode (a v : Word) : (s.writeCache a v).exitCode = s.exitCode := rfl
@[simp] theorem writeCache_instructionsExecuted (a v : Word) : (s.writeCache a v).instructionsExecuted = s.instructionsExecuted := rfl
@[simp] theorem writeCache_imageStatus (a v : Word) : (s.writeCache a v).imageStatus = s.imageStatus := rfl
@[simp] theorem writeCache_hostMoves (a v : Word) : (s.writeCache a v).hostMoves = s.hostMoves := rfl
@[simp] theorem writeCache_params (a v : Word) : (s.writeCache a v).params = s.params := rfl

@[simp] theorem writeValueStack_acc (a v : Word) : (s.writeValueStack a v).acc = s.acc := rfl
@[simp] theorem writeValueStack_pr (a v : Word) : (s.writeValueStack a v).pr = s.pr := rfl
@[simp] theorem writeValueStack_pc (a v : Word) : (s.writeValueStack a v).pc = s.pc := rfl
@[simp] theorem writeValueStack_sp (a v : Word) : (s.writeValueStack a v).sp = s.sp := rfl
@[simp] theorem writeValueStack_asp (a v : Word) : (s.writeValueStack a v).asp = s.asp := rfl
@[simp] theorem writeValueStack_flags (a v : Word) : (s.writeValueStack a v).flags = s.flags := rfl
@[simp] theorem writeValueStack_rom (a v : Word) : (s.writeValueStack a v).rom = s.rom := rfl
@[simp] theorem writeValueStack_cache (a v : Word) : (s.writeValueStack a v).cache = s.cache := rfl
@[simp] theorem writeValueStack_valueStack (a v : Word) : (s.writeValueStack a v).valueStack = s.valueStack.write a v := rfl
@[simp] theorem writeValueStack_addressStack (a v : Word) : (s.writeValueStack a v).addressStack = s.addressStack := rfl
@[simp] theorem writeValueStack_ports (a v : Word) : (s.writeValueStack a v).ports = s.ports := rfl
@[simp] theorem writeValueStack_running (a v : Word) : (s.writeValueStack a v).running = s.running := rfl
@[simp] theorem writeValueStack_exitCode (a v : Word) : (s.writeValueStack a v).exitCode = s.exitCode := rfl
@[simp] theorem writeValueStack_instructionsExecuted (a v : Word) : (s.writeValueStack a v).instructionsExecuted = s.instructionsExecuted := rfl
@[simp] theorem writeValueStack_imageStatus (a v : Word) : (s.writeValueStack a v).imageStatus = s.imageStatus := rfl
@[simp] theorem writeValueStack_hostMoves (a v : Word) : (s.writeValueStack a v).hostMoves = s.hostMoves := rfl
@[simp] theorem writeValueStack_params (a v : Word) : (s.writeValueStack a v).params = s.params := rfl

@[simp] theorem writeAddressStack_acc (a v : Word) : (s.writeAddressStack a v).acc = s.acc := rfl
@[simp] theorem writeAddressStack_pr (a v : Word) : (s.writeAddressStack a v).pr = s.pr := rfl
@[simp] theorem writeAddressStack_pc (a v : Word) : (s.writeAddressStack a v).pc = s.pc := rfl
@[simp] theorem writeAddressStack_sp (a v : Word) : (s.writeAddressStack a v).sp = s.sp := rfl
@[simp] theorem writeAddressStack_asp (a v : Word) : (s.writeAddressStack a v).asp = s.asp := rfl
@[simp] theorem writeAddressStack_flags (a v : Word) : (s.writeAddressStack a v).flags = s.flags := rfl
@[simp] theorem writeAddressStack_rom (a v : Word) : (s.writeAddressStack a v).rom = s.rom := rfl
@[simp] theorem writeAddressStack_cache (a v : Word) : (s.writeAddressStack a v).cache = s.cache := rfl
@[simp] theorem writeAddressStack_valueStack (a v : Word) : (s.writeAddressStack a v).valueStack = s.valueStack := rfl
@[simp] theorem writeAddressStack_addressStack (a v : Word) : (s.writeAddressStack a v).addressStack = s.addressStack.write a v := rfl
@[simp] theorem writeAddressStack_ports (a v : Word) : (s.writeAddressStack a v).ports = s.ports := rfl
@[simp] theorem writeAddressStack_running (a v : Word) : (s.writeAddressStack a v).running = s.running := rfl
@[simp] theorem writeAddressStack_exitCode (a v : Word) : (s.writeAddressStack a v).exitCode = s.exitCode := rfl
@[simp] theorem writeAddressStack_instructionsExecuted (a v : Word) : (s.writeAddressStack a v).instructionsExecuted = s.instructionsExecuted := rfl
@[simp] theorem writeAddressStack_imageStatus (a v : Word) : (s.writeAddressStack a v).imageStatus = s.imageStatus := rfl
@[simp] theorem writeAddressStack_hostMoves (a v : Word) : (s.writeAddressStack a v).hostMoves = s.hostMoves := rfl
@[simp] theorem writeAddressStack_params (a v : Word) : (s.writeAddressStack a v).params = s.params := rfl

@[simp] theorem writePort_acc (a v : Word) : (s.writePort a v).acc = s.acc := rfl
@[simp] theorem writePort_pr (a v : Word) : (s.writePort a v).pr = s.pr := rfl
@[simp] theorem writePort_pc (a v : Word) : (s.writePort a v).pc = s.pc := rfl
@[simp] theorem writePort_sp (a v : Word) : (s.writePort a v).sp = s.sp := rfl
@[simp] theorem writePort_asp (a v : Word) : (s.writePort a v).asp = s.asp := rfl
@[simp] theorem writePort_flags (a v : Word) : (s.writePort a v).flags = s.flags := rfl
@[simp] theorem writePort_rom (a v : Word) : (s.writePort a v).rom = s.rom := rfl
@[simp] theorem writePort_cache (a v : Word) : (s.writePort a v).cache = s.cache := rfl
@[simp] theorem writePort_valueStack (a v : Word) : (s.writePort a v).valueStack = s.valueStack := rfl
@[simp] theorem writePort_addressStack (a v : Word) : (s.writePort a v).addressStack = s.addressStack := rfl
@[simp] theorem writePort_ports (a v : Word) : (s.writePort a v).ports = s.ports.write a v := rfl
@[simp] theorem writePort_running (a v : Word) : (s.writePort a v).running = s.running := rfl
@[simp] theorem writePort_exitCode (a v : Word) : (s.writePort a v).exitCode = s.exitCode := rfl
@[simp] theorem writePort_instructionsExecuted (a v : Word) : (s.writePort a v).instructionsExecuted = s.instructionsExecuted := rfl
@[simp] theorem writePort_imageStatus (a v : Word) : (s.writePort a v).imageStatus = s.imageStatus := rfl
@[simp] theorem writePort_hostMoves (a v : Word) : (s.writePort a v).hostMoves = s.hostMoves := rfl
@[simp] theorem writePort_params (a v : Word) : (s.writePort a v).params = s.params := rfl

@[simp] theorem writeRom_acc (a : Word) (w : RomWord) : (s.writeRom a w).acc = s.acc := rfl
@[simp] theorem writeRom_pr (a : Word) (w : RomWord) : (s.writeRom a w).pr = s.pr := rfl
@[simp] theorem writeRom_pc (a : Word) (w : RomWord) : (s.writeRom a w).pc = s.pc := rfl
@[simp] theorem writeRom_sp (a : Word) (w : RomWord) : (s.writeRom a w).sp = s.sp := rfl
@[simp] theorem writeRom_asp (a : Word) (w : RomWord) : (s.writeRom a w).asp = s.asp := rfl
@[simp] theorem writeRom_flags (a : Word) (w : RomWord) : (s.writeRom a w).flags = s.flags := rfl
@[simp] theorem writeRom_rom (a : Word) (w : RomWord) : (s.writeRom a w).rom = s.rom.write a w := rfl
@[simp] theorem writeRom_cache (a : Word) (w : RomWord) : (s.writeRom a w).cache = s.cache := rfl
@[simp] theorem writeRom_valueStack (a : Word) (w : RomWord) : (s.writeRom a w).valueStack = s.valueStack := rfl
@[simp] theorem writeRom_addressStack (a : Word) (w : RomWord) : (s.writeRom a w).addressStack = s.addressStack := rfl
@[simp] theorem writeRom_ports (a : Word) (w : RomWord) : (s.writeRom a w).ports = s.ports := rfl
@[simp] theorem writeRom_running (a : Word) (w : RomWord) : (s.writeRom a w).running = s.running := rfl
@[simp] theorem writeRom_exitCode (a : Word) (w : RomWord) : (s.writeRom a w).exitCode = s.exitCode := rfl
@[simp] theorem writeRom_instructionsExecuted (a : Word) (w : RomWord) : (s.writeRom a w).instructionsExecuted = s.instructionsExecuted := rfl
@[simp] theorem writeRom_imageStatus (a : Word) (w : RomWord) : (s.writeRom a w).imageStatus = s.imageStatus := rfl
@[simp] theorem writeRom_hostMoves (a : Word) (w : RomWord) : (s.writeRom a w).hostMoves = s.hostMoves := rfl
@[simp] theorem writeRom_params (a : Word) (w : RomWord) : (s.writeRom a w).params = s.params := rfl

@[simp] theorem pushValue_acc (v : Word) : (s.pushValue v).acc = s.acc := rfl
@[simp] theorem pushValue_pr (v : Word) : (s.pushValue v).pr = s.pr := rfl
@[simp] theorem pushValue_pc (v : Word) : (s.pushValue v).pc = s.pc := rfl
@[simp] theorem pushValue_sp (v : Word) : (s.pushValue v).sp = s.sp + 1 := rfl
@[simp] theorem pushValue_asp (v : Word) : (s.pushValue v).asp = s.asp := rfl
@[simp] theorem pushValue_flags (v : Word) : (s.pushValue v).flags = s.flags := rfl
@[simp] theorem pushValue_rom (v : Word) : (s.pushValue v).rom = s.rom := rfl
@[simp] theorem pushValue_cache (v : Word) : (s.pushValue v).cache = s.cache := rfl
@[simp] theorem pushValue_valueStack (v : Word) : (s.pushValue v).valueStack = s.valueStack.write s.sp v := rfl
@[simp] theorem pushValue_addressStack (v : Word) : (s.pushValue v).addressStack = s.addressStack := rfl
@[simp] theorem pushValue_ports (v : Word) : (s.pushValue v).ports = s.ports := rfl
@[simp] theorem pushValue_running (v : Word) : (s.pushValue v).running = s.running := rfl
@[simp] theorem pushValue_exitCode (v : Word) : (s.pushValue v).exitCode = s.exitCode := rfl
@[simp] theorem pushValue_instructionsExecuted (v : Word) : (s.pushValue v).instructionsExecuted = s.instructionsExecuted := rfl
@[simp] theorem pushValue_imageStatus (v : Word) : (s.pushValue v).imageStatus = s.imageStatus := rfl
@[simp] theorem pushValue_hostMoves (v : Word) : (s.pushValue v).hostMoves = s.hostMoves := rfl
@[simp] theorem pushValue_params (v : Word) : (s.pushValue v).params = s.params := rfl

@[simp] theorem pushAddress_acc (v : Word) : (s.pushAddress v).acc = s.acc := rfl
@[simp] theorem pushAddress_pr (v : Word) : (s.pushAddress v).pr = s.pr := rfl
@[simp] theorem pushAddress_pc (v : Word) : (s.pushAddress v).pc = s.pc := rfl
@[simp] theorem pushAddress_sp (v : Word) : (s.pushAddress v).sp = s.sp := rfl
@[simp] theorem pushAddress_asp (v : Word) : (s.pushAddress v).asp = s.asp + 1 := rfl
@[simp] theorem pushAddress_flags (v : Word) : (s.pushAddress v).flags = s.flags := rfl
@[simp] theorem pushAddress_rom (v : Word) : (s.pushAddress v).rom = s.rom := rfl
@[simp] theorem pushAddress_cache (v : Word) : (s.pushAddress v).cache = s.cache := rfl
@[simp] theorem pushAddress_valueStack (v : Word) : (s.pushAddress v).valueStack = s.valueStack := rfl
@[simp] theorem pushAddress_addressStack (v : Word) : (s.pushAddress v).addressStack = s.addressStack.write s.asp v := rfl
@[simp] theorem pushAddress_ports (v : Word) : (s.pushAddress v).ports = s.ports := rfl
@[simp] theorem pushAddress_running (v : Word) : (s.pushAddress v).running = s.running := rfl
@[simp] theorem pushAddress_exitCode (v : Word) : (s.pushAddress v).exitCode = s.exitCode := rfl
@[simp] theorem pushAddress_instructionsExecuted (v : Word) : (s.pushAddress v).instructionsExecuted = s.instructionsExecuted := rfl
@[simp] theorem pushAddress_imageStatus (v : Word) : (s.pushAddress v).imageStatus = s.imageStatus := rfl
@[simp] theorem pushAddress_hostMoves (v : Word) : (s.pushAddress v).hostMoves = s.hostMoves := rfl
@[simp] theorem pushAddress_params (v : Word) : (s.pushAddress v).params = s.params := rfl

@[simp] theorem aimPc_acc (v : Word) : (s.aimPc v).acc = s.acc := rfl
@[simp] theorem aimPc_pr (v : Word) : (s.aimPc v).pr = s.pr := rfl
@[simp] theorem aimPc_pc (v : Word) : (s.aimPc v).pc = v - 1 := rfl
@[simp] theorem aimPc_sp (v : Word) : (s.aimPc v).sp = s.sp := rfl
@[simp] theorem aimPc_asp (v : Word) : (s.aimPc v).asp = s.asp := rfl
@[simp] theorem aimPc_flags (v : Word) : (s.aimPc v).flags = s.flags := rfl
@[simp] theorem aimPc_rom (v : Word) : (s.aimPc v).rom = s.rom := rfl
@[simp] theorem aimPc_cache (v : Word) : (s.aimPc v).cache = s.cache := rfl
@[simp] theorem aimPc_valueStack (v : Word) : (s.aimPc v).valueStack = s.valueStack := rfl
@[simp] theorem aimPc_addressStack (v : Word) : (s.aimPc v).addressStack = s.addressStack := rfl
@[simp] theorem aimPc_ports (v : Word) : (s.aimPc v).ports = s.ports := rfl
@[simp] theorem aimPc_running (v : Word) : (s.aimPc v).running = s.running := rfl
@[simp] theorem aimPc_exitCode (v : Word) : (s.aimPc v).exitCode = s.exitCode := rfl
@[simp] theorem aimPc_instructionsExecuted (v : Word) : (s.aimPc v).instructionsExecuted = s.instructionsExecuted := rfl
@[simp] theorem aimPc_imageStatus (v : Word) : (s.aimPc v).imageStatus = s.imageStatus := rfl
@[simp] theorem aimPc_hostMoves (v : Word) : (s.aimPc v).hostMoves = s.hostMoves := rfl
@[simp] theorem aimPc_params (v : Word) : (s.aimPc v).params = s.params := rfl

@[simp] theorem stop_acc (code : Int) : (s.stop code).acc = s.acc := rfl
@[simp] theorem stop_pr (code : Int) : (s.stop code).pr = s.pr := rfl
@[simp] theorem stop_pc (code : Int) : (s.stop code).pc = s.pc := rfl
@[simp] theorem stop_sp (code : Int) : (s.stop code).sp = s.sp := rfl
@[simp] theorem stop_asp (code : Int) : (s.stop code).asp = s.asp := rfl
@[simp] theorem stop_flags (code : Int) : (s.stop code).flags = s.flags := rfl
@[simp] theorem stop_rom (code : Int) : (s.stop code).rom = s.rom := rfl
@[simp] theorem stop_cache (code : Int) : (s.stop code).cache = s.cache := rfl
@[simp] theorem stop_valueStack (code : Int) : (s.stop code).valueStack = s.valueStack := rfl
@[simp] theorem stop_addressStack (code : Int) : (s.stop code).addressStack = s.addressStack := rfl
@[simp] theorem stop_ports (code : Int) : (s.stop code).ports = s.ports := rfl
@[simp] theorem stop_running (code : Int) : (s.stop code).running = false := rfl
@[simp] theorem stop_exitCode (code : Int) : (s.stop code).exitCode = code := rfl
@[simp] theorem stop_instructionsExecuted (code : Int) : (s.stop code).instructionsExecuted = s.instructionsExecuted := rfl
@[simp] theorem stop_imageStatus (code : Int) : (s.stop code).imageStatus = s.imageStatus := rfl
@[simp] theorem stop_hostMoves (code : Int) : (s.stop code).hostMoves = s.hostMoves := rfl
@[simp] theorem stop_params (code : Int) : (s.stop code).params = s.params := rfl

@[simp] theorem takeException_acc (e : SyncException) : (s.takeException e).acc = s.acc := rfl
@[simp] theorem takeException_pr (e : SyncException) : (s.takeException e).pr = s.pr := rfl
@[simp] theorem takeException_pc (e : SyncException) : (s.takeException e).pc = s.pc := rfl
@[simp] theorem takeException_sp (e : SyncException) : (s.takeException e).sp = s.sp := rfl
@[simp] theorem takeException_asp (e : SyncException) : (s.takeException e).asp = s.asp := rfl
@[simp] theorem takeException_flags (e : SyncException) : (s.takeException e).flags = s.flags := rfl
@[simp] theorem takeException_rom (e : SyncException) : (s.takeException e).rom = s.rom := rfl
@[simp] theorem takeException_cache (e : SyncException) : (s.takeException e).cache = s.cache := rfl
@[simp] theorem takeException_valueStack (e : SyncException) : (s.takeException e).valueStack = s.valueStack := rfl
@[simp] theorem takeException_addressStack (e : SyncException) : (s.takeException e).addressStack = s.addressStack := rfl
@[simp] theorem takeException_ports (e : SyncException) : (s.takeException e).ports = s.ports := rfl
@[simp] theorem takeException_running (e : SyncException) : (s.takeException e).running = false := rfl
@[simp] theorem takeException_exitCode (e : SyncException) : (s.takeException e).exitCode = e.exitCode s.params := rfl
@[simp] theorem takeException_instructionsExecuted (e : SyncException) : (s.takeException e).instructionsExecuted = s.instructionsExecuted := rfl
@[simp] theorem takeException_imageStatus (e : SyncException) : (s.takeException e).imageStatus = s.imageStatus := rfl
@[simp] theorem takeException_hostMoves (e : SyncException) : (s.takeException e).hostMoves = s.hostMoves := rfl
@[simp] theorem takeException_params (e : SyncException) : (s.takeException e).params = s.params := rfl

@[simp] theorem startRun_acc : (s.startRun).acc = s.acc := rfl
@[simp] theorem startRun_pr : (s.startRun).pr = s.pr := rfl
@[simp] theorem startRun_pc : (s.startRun).pc = s.pc := rfl
@[simp] theorem startRun_sp : (s.startRun).sp = s.sp := rfl
@[simp] theorem startRun_asp : (s.startRun).asp = s.asp := rfl
@[simp] theorem startRun_flags : (s.startRun).flags = s.flags := rfl
@[simp] theorem startRun_rom : (s.startRun).rom = s.rom := rfl
@[simp] theorem startRun_cache : (s.startRun).cache = s.cache := rfl
@[simp] theorem startRun_valueStack : (s.startRun).valueStack = s.valueStack := rfl
@[simp] theorem startRun_addressStack : (s.startRun).addressStack = s.addressStack := rfl
@[simp] theorem startRun_ports : (s.startRun).ports = s.ports := rfl
@[simp] theorem startRun_running : (s.startRun).running = true := rfl
@[simp] theorem startRun_exitCode : (s.startRun).exitCode = s.exitCode := rfl
@[simp] theorem startRun_instructionsExecuted : (s.startRun).instructionsExecuted = 0 := rfl
@[simp] theorem startRun_imageStatus : (s.startRun).imageStatus = s.imageStatus := rfl
@[simp] theorem startRun_hostMoves : (s.startRun).hostMoves = s.hostMoves := rfl
@[simp] theorem startRun_params : (s.startRun).params = s.params := rfl

@[simp] theorem putSum_acc (r : Int) : (s.putSum r).acc = wrap16 r := rfl
@[simp] theorem putSum_pr (r : Int) : (s.putSum r).pr = s.pr := rfl
@[simp] theorem putSum_pc (r : Int) : (s.putSum r).pc = s.pc := rfl
@[simp] theorem putSum_sp (r : Int) : (s.putSum r).sp = s.sp := rfl
@[simp] theorem putSum_asp (r : Int) : (s.putSum r).asp = s.asp := rfl
@[simp] theorem putSum_flags (r : Int) : (s.putSum r).flags = { s.flags with c := above16 r } := rfl
@[simp] theorem putSum_rom (r : Int) : (s.putSum r).rom = s.rom := rfl
@[simp] theorem putSum_cache (r : Int) : (s.putSum r).cache = s.cache := rfl
@[simp] theorem putSum_valueStack (r : Int) : (s.putSum r).valueStack = s.valueStack := rfl
@[simp] theorem putSum_addressStack (r : Int) : (s.putSum r).addressStack = s.addressStack := rfl
@[simp] theorem putSum_ports (r : Int) : (s.putSum r).ports = s.ports := rfl
@[simp] theorem putSum_running (r : Int) : (s.putSum r).running = s.running := rfl
@[simp] theorem putSum_exitCode (r : Int) : (s.putSum r).exitCode = s.exitCode := rfl
@[simp] theorem putSum_instructionsExecuted (r : Int) : (s.putSum r).instructionsExecuted = s.instructionsExecuted := rfl
@[simp] theorem putSum_imageStatus (r : Int) : (s.putSum r).imageStatus = s.imageStatus := rfl
@[simp] theorem putSum_hostMoves (r : Int) : (s.putSum r).hostMoves = s.hostMoves := rfl
@[simp] theorem putSum_params (r : Int) : (s.putSum r).params = s.params := rfl

@[simp] theorem putDifference_acc (r : Int) : (s.putDifference r).acc = wrap16 r := rfl
@[simp] theorem putDifference_pr (r : Int) : (s.putDifference r).pr = s.pr := rfl
@[simp] theorem putDifference_pc (r : Int) : (s.putDifference r).pc = s.pc := rfl
@[simp] theorem putDifference_sp (r : Int) : (s.putDifference r).sp = s.sp := rfl
@[simp] theorem putDifference_asp (r : Int) : (s.putDifference r).asp = s.asp := rfl
@[simp] theorem putDifference_flags (r : Int) : (s.putDifference r).flags = { s.flags with c := below0 r } := rfl
@[simp] theorem putDifference_rom (r : Int) : (s.putDifference r).rom = s.rom := rfl
@[simp] theorem putDifference_cache (r : Int) : (s.putDifference r).cache = s.cache := rfl
@[simp] theorem putDifference_valueStack (r : Int) : (s.putDifference r).valueStack = s.valueStack := rfl
@[simp] theorem putDifference_addressStack (r : Int) : (s.putDifference r).addressStack = s.addressStack := rfl
@[simp] theorem putDifference_ports (r : Int) : (s.putDifference r).ports = s.ports := rfl
@[simp] theorem putDifference_running (r : Int) : (s.putDifference r).running = s.running := rfl
@[simp] theorem putDifference_exitCode (r : Int) : (s.putDifference r).exitCode = s.exitCode := rfl
@[simp] theorem putDifference_instructionsExecuted (r : Int) : (s.putDifference r).instructionsExecuted = s.instructionsExecuted := rfl
@[simp] theorem putDifference_imageStatus (r : Int) : (s.putDifference r).imageStatus = s.imageStatus := rfl
@[simp] theorem putDifference_hostMoves (r : Int) : (s.putDifference r).hostMoves = s.hostMoves := rfl
@[simp] theorem putDifference_params (r : Int) : (s.putDifference r).params = s.params := rfl

@[simp] theorem putProduct_acc (r : Int) : (s.putProduct r).acc = wrap16 r := rfl
@[simp] theorem putProduct_pr (r : Int) : (s.putProduct r).pr = s.pr := rfl
@[simp] theorem putProduct_pc (r : Int) : (s.putProduct r).pc = s.pc := rfl
@[simp] theorem putProduct_sp (r : Int) : (s.putProduct r).sp = s.sp := rfl
@[simp] theorem putProduct_asp (r : Int) : (s.putProduct r).asp = s.asp := rfl
@[simp] theorem putProduct_flags (r : Int) : (s.putProduct r).flags = { s.flags with v := above16 r } := rfl
@[simp] theorem putProduct_rom (r : Int) : (s.putProduct r).rom = s.rom := rfl
@[simp] theorem putProduct_cache (r : Int) : (s.putProduct r).cache = s.cache := rfl
@[simp] theorem putProduct_valueStack (r : Int) : (s.putProduct r).valueStack = s.valueStack := rfl
@[simp] theorem putProduct_addressStack (r : Int) : (s.putProduct r).addressStack = s.addressStack := rfl
@[simp] theorem putProduct_ports (r : Int) : (s.putProduct r).ports = s.ports := rfl
@[simp] theorem putProduct_running (r : Int) : (s.putProduct r).running = s.running := rfl
@[simp] theorem putProduct_exitCode (r : Int) : (s.putProduct r).exitCode = s.exitCode := rfl
@[simp] theorem putProduct_instructionsExecuted (r : Int) : (s.putProduct r).instructionsExecuted = s.instructionsExecuted := rfl
@[simp] theorem putProduct_imageStatus (r : Int) : (s.putProduct r).imageStatus = s.imageStatus := rfl
@[simp] theorem putProduct_hostMoves (r : Int) : (s.putProduct r).hostMoves = s.hostMoves := rfl
@[simp] theorem putProduct_params (r : Int) : (s.putProduct r).params = s.params := rfl

@[simp] theorem countInstruction_acc : (s.countInstruction).acc = s.acc := rfl
@[simp] theorem countInstruction_pr : (s.countInstruction).pr = s.pr := rfl
@[simp] theorem countInstruction_pc : (s.countInstruction).pc = s.pc := rfl
@[simp] theorem countInstruction_sp : (s.countInstruction).sp = s.sp := rfl
@[simp] theorem countInstruction_asp : (s.countInstruction).asp = s.asp := rfl
@[simp] theorem countInstruction_flags : (s.countInstruction).flags = s.flags := rfl
@[simp] theorem countInstruction_rom : (s.countInstruction).rom = s.rom := rfl
@[simp] theorem countInstruction_cache : (s.countInstruction).cache = s.cache := rfl
@[simp] theorem countInstruction_valueStack : (s.countInstruction).valueStack = s.valueStack := rfl
@[simp] theorem countInstruction_addressStack : (s.countInstruction).addressStack = s.addressStack := rfl
@[simp] theorem countInstruction_ports : (s.countInstruction).ports = s.ports := rfl
@[simp] theorem countInstruction_running : (s.countInstruction).running = s.running := rfl
@[simp] theorem countInstruction_exitCode : (s.countInstruction).exitCode = s.exitCode := rfl
@[simp] theorem countInstruction_instructionsExecuted : (s.countInstruction).instructionsExecuted = s.instructionsExecuted + 1 := rfl
@[simp] theorem countInstruction_imageStatus : (s.countInstruction).imageStatus = s.imageStatus := rfl
@[simp] theorem countInstruction_hostMoves : (s.countInstruction).hostMoves = s.hostMoves := rfl
@[simp] theorem countInstruction_params : (s.countInstruction).params = s.params := rfl

@[simp] theorem refreshPZS_acc : (s.refreshPZS).acc = s.acc := rfl
@[simp] theorem refreshPZS_pr : (s.refreshPZS).pr = s.pr := rfl
@[simp] theorem refreshPZS_pc : (s.refreshPZS).pc = s.pc := rfl
@[simp] theorem refreshPZS_sp : (s.refreshPZS).sp = s.sp := rfl
@[simp] theorem refreshPZS_asp : (s.refreshPZS).asp = s.asp := rfl
@[simp] theorem refreshPZS_flags : (s.refreshPZS).flags = { s.flags with p := parityOf s.acc, z := zeroOf s.acc, s := signOf s.acc } := rfl
@[simp] theorem refreshPZS_rom : (s.refreshPZS).rom = s.rom := rfl
@[simp] theorem refreshPZS_cache : (s.refreshPZS).cache = s.cache := rfl
@[simp] theorem refreshPZS_valueStack : (s.refreshPZS).valueStack = s.valueStack := rfl
@[simp] theorem refreshPZS_addressStack : (s.refreshPZS).addressStack = s.addressStack := rfl
@[simp] theorem refreshPZS_ports : (s.refreshPZS).ports = s.ports := rfl
@[simp] theorem refreshPZS_running : (s.refreshPZS).running = s.running := rfl
@[simp] theorem refreshPZS_exitCode : (s.refreshPZS).exitCode = s.exitCode := rfl
@[simp] theorem refreshPZS_instructionsExecuted : (s.refreshPZS).instructionsExecuted = s.instructionsExecuted := rfl
@[simp] theorem refreshPZS_imageStatus : (s.refreshPZS).imageStatus = s.imageStatus := rfl
@[simp] theorem refreshPZS_hostMoves : (s.refreshPZS).hostMoves = s.hostMoves := rfl
@[simp] theorem refreshPZS_params : (s.refreshPZS).params = s.params := rfl

@[simp] theorem advancePc_acc : (s.advancePc).acc = s.acc := rfl
@[simp] theorem advancePc_pr : (s.advancePc).pr = s.pr := rfl
@[simp] theorem advancePc_pc : (s.advancePc).pc = s.pc + 1 := rfl
@[simp] theorem advancePc_sp : (s.advancePc).sp = s.sp := rfl
@[simp] theorem advancePc_asp : (s.advancePc).asp = s.asp := rfl
@[simp] theorem advancePc_flags : (s.advancePc).flags = s.flags := rfl
@[simp] theorem advancePc_rom : (s.advancePc).rom = s.rom := rfl
@[simp] theorem advancePc_cache : (s.advancePc).cache = s.cache := rfl
@[simp] theorem advancePc_valueStack : (s.advancePc).valueStack = s.valueStack := rfl
@[simp] theorem advancePc_addressStack : (s.advancePc).addressStack = s.addressStack := rfl
@[simp] theorem advancePc_ports : (s.advancePc).ports = s.ports := rfl
@[simp] theorem advancePc_running : (s.advancePc).running = s.running := rfl
@[simp] theorem advancePc_exitCode : (s.advancePc).exitCode = s.exitCode := rfl
@[simp] theorem advancePc_instructionsExecuted : (s.advancePc).instructionsExecuted = s.instructionsExecuted := rfl
@[simp] theorem advancePc_imageStatus : (s.advancePc).imageStatus = s.imageStatus := rfl
@[simp] theorem advancePc_hostMoves : (s.advancePc).hostMoves = s.hostMoves := rfl
@[simp] theorem advancePc_params : (s.advancePc).params = s.params := rfl

@[simp] theorem finishStep_acc : (s.finishStep).acc = s.acc := rfl
@[simp] theorem finishStep_pr : (s.finishStep).pr = s.pr := rfl
@[simp] theorem finishStep_pc : (s.finishStep).pc = s.pc + 1 := rfl
@[simp] theorem finishStep_sp : (s.finishStep).sp = s.sp := rfl
@[simp] theorem finishStep_asp : (s.finishStep).asp = s.asp := rfl
@[simp] theorem finishStep_flags : (s.finishStep).flags = { s.flags with p := parityOf s.acc, z := zeroOf s.acc, s := signOf s.acc } := rfl
@[simp] theorem finishStep_rom : (s.finishStep).rom = s.rom := rfl
@[simp] theorem finishStep_cache : (s.finishStep).cache = s.cache := rfl
@[simp] theorem finishStep_valueStack : (s.finishStep).valueStack = s.valueStack := rfl
@[simp] theorem finishStep_addressStack : (s.finishStep).addressStack = s.addressStack := rfl
@[simp] theorem finishStep_ports : (s.finishStep).ports = s.ports := rfl
@[simp] theorem finishStep_running : (s.finishStep).running = s.running := rfl
@[simp] theorem finishStep_exitCode : (s.finishStep).exitCode = s.exitCode := rfl
@[simp] theorem finishStep_instructionsExecuted : (s.finishStep).instructionsExecuted = s.instructionsExecuted + 1 := rfl
@[simp] theorem finishStep_imageStatus : (s.finishStep).imageStatus = s.imageStatus := rfl
@[simp] theorem finishStep_hostMoves : (s.finishStep).hostMoves = s.hostMoves := rfl
@[simp] theorem finishStep_params : (s.finishStep).params = s.params := rfl

@[simp] theorem popValue_fst : s.popValue.1 = s.valueStack.read (s.sp - 1) := rfl
@[simp] theorem popValue_snd : s.popValue.2 = s.setSp (s.sp - 1) := rfl
@[simp] theorem popAddress_fst : s.popAddress.1 = s.addressStack.read (s.asp - 1) := rfl
@[simp] theorem popAddress_snd : s.popAddress.2 = s.setAsp (s.asp - 1) := rfl
theorem fetch_eq : s.fetch = s.rom.read s.pc := rfl

end Sys2Proof.Machine.State
end

