-- ==== Sys2Proof/Laws/Exec.lean ====
section
/-! SUPPORT. What each part of a step answers, once per definition: the step by who moves, the dispatch by what the word
decodes to, and every arm of `exec` as the next state it gives. -/

namespace Sys2Proof.Machine

theorem step_running {s : State} (h : s.running = true) : step s = instructionStep s := by
  simp [step, h]

theorem step_stopped {s : State} (h : s.running = false) : step s = hostStep s := by
  simp [step, h]

theorem dispatchWord_instr {w : RomWord} {i : Instr} {s : State} (h : decodeWith s.params.opcodeMap w = .instr i) :
    dispatchWord w s = exec i s := by
  simp [dispatchWord, h]

theorem dispatchWord_unknown {w : RomWord} {op : Opcode} {s : State}
    (h : decodeWith s.params.opcodeMap w = .unknownOpcode op) :
    dispatchWord w s = .next (s.takeException .unknownOpcode) := by
  simp [dispatchWord, h]

theorem instructionStep_eq (s : State) : instructionStep s = finishOutcome (dispatchWord (s.rom.read s.pc) s) := rfl

@[simp] theorem finishOutcome_next (u : State) : finishOutcome (.next u) = .next u.finishStep := rfl

theorem hostStep_nil {s : State} (h : s.hostMoves = []) : hostStep s = .next s := by
  simp [hostStep, h]

theorem hostStep_cons {s : State} {m : HostMove} {rest : List HostMove} (h : s.hostMoves = m :: rest) :
    hostStep s = .next (State.hostMove { s with hostMoves := rest } m) := by
  simp [hostStep, h]

variable (o : Operand) (s : State)

theorem exec_load : exec (.load o) s = .next (s.setAcc (busValue o s)) := rfl
theorem exec_store : exec (.store o) s = .next (s.writeCache (busValue o s) s.acc) := rfl
theorem exec_loadp : exec (.loadp o) s = .next (s.setAcc (s.cache.read s.acc)) := rfl
theorem exec_loadpr : exec (.loadpr o) s = .next (s.setPr (busValue o s)) := rfl
theorem exec_storep : exec (.storep o) s = .next (s.writeCache s.pr s.acc) := rfl
theorem exec_tapr : exec (.tapr o) s = .next (s.setPr s.acc) := rfl
theorem exec_push : exec (.push o) s = .next (s.pushValue (pushOperand s.params.pushSource o s)) := rfl
theorem exec_pop : exec (.pop o) s = .next ((s.setSp (s.sp - 1)).setAcc (s.valueStack.read (s.sp - 1))) := rfl
theorem exec_call : exec (.call o) s = .next ((s.pushAddress s.pc).aimPc (busValue o s)) := rfl
theorem exec_ret : exec (.ret o) s = .next ((s.setAsp (s.asp - 1)).setPc (s.addressStack.read (s.asp - 1))) := rfl
theorem exec_jump : exec (.jump o) s = .next (s.aimPc (busValue o s)) := rfl
theorem exec_jumpc :
    exec (.jumpc o) s = .next (if s.flags.selected (busValue o s) then s.aimPc s.pr else s) := rfl
theorem exec_clf : exec (.clf o) s = .next (s.setFlags Flags.zero) := rfl
theorem exec_and : exec (.and o) s = .next (s.setAcc (s.acc &&& busValue o s)) := rfl
theorem exec_or : exec (.or o) s = .next (s.setAcc (s.acc ||| busValue o s)) := rfl
theorem exec_xor : exec (.xor o) s = .next (s.setAcc (s.acc ^^^ busValue o s)) := rfl
theorem exec_lsl : exec (.lsl o) s =
    .next ((s.setOverflow (s.acc.getLsbD 15)).setAcc (shiftLeft s.acc (busValue o s).toNat)) := rfl
theorem exec_lsr : exec (.lsr o) s =
    .next ((s.setUnderflow (s.acc.getLsbD 0)).setAcc (shiftRight s.acc (busValue o s).toNat)) := rfl
theorem exec_rol : exec (.rol o) s = .next (s.setAcc (rotateLeft s.acc (busValue o s).toNat)) := rfl
theorem exec_ror : exec (.ror o) s = .next (s.setAcc (rotateRight s.acc (busValue o s).toNat)) := rfl
theorem exec_comp : exec (.comp o) s = .next (s.setAcc (compareWords s.acc (busValue o s))) := rfl
theorem exec_add : exec (.add o) s = .next (s.putSum (exactSum s.acc (busValue o s) false)) := rfl
theorem exec_sub : exec (.sub o) s = .next (s.putDifference (exactDifference s.acc (busValue o s) false)) := rfl
theorem exec_addc : exec (.addc o) s = .next (s.putSum (exactSum s.acc (busValue o s) s.flags.c)) := rfl
theorem exec_subc : exec (.subc o) s = .next (s.putDifference (exactDifference s.acc (busValue o s) s.flags.c)) := rfl
theorem exec_inc : exec (.inc o) s = .next (s.putSum (exactSum s.acc 1#16 false)) := rfl
theorem exec_dec : exec (.dec o) s = .next (s.putDifference (exactDifference s.acc 1#16 false)) := rfl
theorem exec_mul : exec (.mul o) s = .next (s.putProduct (exactProduct s.acc (busValue o s))) := rfl
theorem exec_div : exec (.div o) s = .next (if busValue o s = 0#16 then s.takeException .divideByZero
    else s.setAcc (BitVec.ofNat 16 (s.acc.toNat / (busValue o s).toNat))) := rfl
theorem exec_mod : exec (.mod o) s = .next (if busValue o s = 0#16 then s.takeException .divideByZero
    else s.setAcc (BitVec.ofNat 16 (s.acc.toNat % (busValue o s).toNat))) := rfl
theorem exec_portw : exec (.portw o) s = .next (s.writePort (busValue o s) s.acc) := rfl
theorem exec_portr : exec (.portr o) s = .next (s.setAcc (s.ports.read (busValue o s))) := rfl
theorem exec_int : exec (.int o) s = .next (s.stop ((busValue o s).toNat : Int)) := rfl
theorem exec_halt : exec (.halt o) s = .next (s.stop 0) := rfl

end Sys2Proof.Machine
end

