-- ==== Sys2Proof/Laws/Memory.lean ====
section
/-! SUPPORT. The laws of the address spaces: what a read gives after a write, and that every operation keeps the
canonical form (spec/20_memory.md R35, R37, R41). -/

namespace Sys2Proof.Machine.Memory

variable {w : Nat}

@[simp] theorem get_nil (a : Nat) : get ([] : Memory w) a = unlisted := rfl

theorem get_cons (c : Nat × BitVec w) (m : Memory w) (a : Nat) :
    get (c :: m) a = if c.1 = a then c.2 else get m a := rfl

theorem get_erase_same (m : Memory w) (a : Nat) : get (erase m a) a = unlisted := by
  induction m with
  | nil => rfl
  | cons c m ih =>
    rw [erase]
    split
    · exact ih
    · rename_i h
      rw [get_cons, if_neg h, ih]

theorem get_erase_other (m : Memory w) {a b : Nat} (h : b ≠ a) : get (erase m a) b = get m b := by
  induction m with
  | nil => rfl
  | cons c m ih =>
    rw [erase]
    split
    · rename_i hc
      rw [ih, get_cons, if_neg (by omega)]
    · rw [get_cons, get_cons, ih]

/-- After placing an entry, the placed index reads as it, if no other entry had that index. -/
theorem get_place_same (m : Memory w) (a : Nat) (v : BitVec w) (h : ∀ c ∈ m, c.1 ≠ a) :
    get (place m a v) a = v := by
  induction m with
  | nil => simp [place, get_cons]
  | cons c m ih =>
    rw [place]
    split
    · simp [get_cons]
    · rw [get_cons, if_neg (h c (by simp)), ih fun d hd => h d (by simp [hd])]

theorem get_place_other (m : Memory w) {a b : Nat} (v : BitVec w) (h : b ≠ a) :
    get (place m a v) b = get m b := by
  induction m with
  | nil => simp [place, get_cons, h.symm]
  | cons c m ih =>
    rw [place]
    split
    · rw [get_cons, if_neg (by simpa using h.symm)]
    · rw [get_cons, get_cons, ih]

theorem erase_ne (m : Memory w) (a : Nat) : ∀ c ∈ erase m a, c.1 ≠ a := by
  induction m with
  | nil => simp [erase]
  | cons c m ih =>
    rw [erase]
    split
    · exact ih
    · rename_i h
      intro d hd
      rcases List.mem_cons.mp hd with rfl | hd
      · exact h
      · exact ih d hd

@[simp] theorem get_set_same (m : Memory w) (a : Nat) (v : BitVec w) : get (set m a v) a = v := by
  rw [set]
  split
  · rename_i h
    rw [get_erase_same, h]
  · exact get_place_same _ _ _ (erase_ne m a)

theorem get_set_other (m : Memory w) {a b : Nat} (v : BitVec w) (h : b ≠ a) : get (set m a v) b = get m b := by
  rw [set]
  split
  · exact get_erase_other m h
  · rw [get_place_other _ _ h, get_erase_other m h]

/-- A read after a write to the same cell gives the value written. -/
@[simp] theorem read_write_same (m : Memory w) (a : Word) (v : BitVec w) : (m.write a v).read a = v :=
  get_set_same m a.toNat v

/-- A write leaves every other cell as it was. -/
theorem read_write_other (m : Memory w) {a b : Word} (v : BitVec w) (h : b ≠ a) :
    (m.write a v).read b = m.read b :=
  get_set_other m v fun e => h (BitVec.eq_of_toNat_eq e)

theorem wfFrom_cons (lo : Nat) (c : Nat × BitVec w) (m : Memory w) :
    wfFrom lo (c :: m) = true ↔
      lo ≤ c.1 ∧ c.1 < Config.spaceCells ∧ c.2 ≠ unlisted ∧ wfFrom (c.1 + 1) m = true := by
  simp [wfFrom, and_assoc]

/-- A canonical form from some index on is one from any lower index on. -/
theorem wfFrom_mono {lo lo' : Nat} (h : lo' ≤ lo) {m : Memory w} (hm : wfFrom lo m = true) :
    wfFrom lo' m = true := by
  cases m with
  | nil => rfl
  | cons c m =>
    rw [wfFrom_cons] at hm ⊢
    exact ⟨by omega, hm.2⟩

theorem erase_wfFrom {lo : Nat} {m : Memory w} (a : Nat) (h : wfFrom lo m = true) :
    wfFrom lo (erase m a) = true := by
  induction m generalizing lo with
  | nil => rfl
  | cons c m ih =>
    rw [wfFrom_cons] at h
    rw [erase]
    split
    · exact wfFrom_mono (by omega) (ih h.2.2.2)
    · rw [wfFrom_cons]
      exact ⟨h.1, h.2.1, h.2.2.1, ih h.2.2.2⟩

theorem place_wfFrom {lo : Nat} {m : Memory w} {a : Nat} {v : BitVec w} (hlo : lo ≤ a) (ha : a < Config.spaceCells)
    (hv : v ≠ unlisted) (hne : ∀ c ∈ m, c.1 ≠ a) (h : wfFrom lo m = true) : wfFrom lo (place m a v) = true := by
  induction m generalizing lo with
  | nil => exact (wfFrom_cons _ _ _).mpr ⟨hlo, ha, hv, rfl⟩
  | cons c m ih =>
    rw [wfFrom_cons] at h
    rw [place]
    split
    · rename_i hac
      exact (wfFrom_cons _ _ _).mpr ⟨hlo, ha, hv, (wfFrom_cons _ _ _).mpr ⟨hac, h.2⟩⟩
    · have hc : c.1 ≠ a := hne c (by simp)
      exact (wfFrom_cons _ _ _).mpr
        ⟨h.1, h.2.1, h.2.2.1, ih (by omega) (fun d hd => hne d (by simp [hd])) h.2.2.2⟩

/-- Writing inside the space keeps the canonical form. -/
theorem set_wf {m : Memory w} {a : Nat} (v : BitVec w) (ha : a < Config.spaceCells) (h : m.wf = true) :
    (set m a v).wf = true := by
  rw [set]
  split
  · exact erase_wfFrom a h
  · rename_i hv
    exact place_wfFrom (Nat.zero_le a) ha hv (erase_ne m a) (erase_wfFrom a h)

/-- Every write of the machine keeps the canonical form. -/
theorem write_wf {m : Memory w} (a : Word) (v : BitVec w) (h : m.wf = true) : (m.write a v).wf = true :=
  set_wf v a.isLt h

/-- The empty list, every space's reset contents, is in canonical form. -/
theorem nil_wf : wf ([] : Memory w) = true := rfl

/-- Below the index a canonical form starts from, every cell reads as unlisted. -/
theorem get_below {lo : Nat} {m : Memory w} {a : Nat} (h : wfFrom lo m = true) (ha : a < lo) :
    get m a = unlisted := by
  induction m generalizing lo with
  | nil => rfl
  | cons c m ih =>
    rw [wfFrom_cons] at h
    rw [get_cons, if_neg (by omega)]
    exact ih h.2.2.2 (by omega)

theorem snapshot_length (m : Memory w) : m.snapshot.length = Config.spaceCells := by
  simp [snapshot]

theorem snapshot_getElem (m : Memory w) (a : Word) : m.snapshot[a.toNat]? = some (m.read a) := by
  simp [snapshot, read, Config.spaceCells, a.isLt]

end Sys2Proof.Machine.Memory
end

