-- ==== Sys2Proof/Laws/Safety.lean ====
section
/-! SUPPORT. The terms of Safety.lean in the terms of the machine: the end of a step, the written cell, the invariant's
parts. -/

namespace Sys2Proof.Machine

/-- Over any list of bit places the XOR is on exactly when an odd number of the bits is. -/
theorem foldl_xor_eq_filter_odd (f : Nat → Bool) (l : List Nat) (b : Bool) :
    l.foldl (fun b i => b ^^ f i) b = (b ^^ ((l.filter f).length % 2 == 1)) := by
  induction l generalizing b with
  | nil => simp
  | cons a l ih =>
    rw [List.foldl_cons, ih, List.filter_cons]
    cases hf : f a
    · simp
    · rcases Nat.mod_two_eq_zero_or_one (l.filter f).length with h | h <;>
        simp [h, Nat.add_mod]

/-- The two wordings of parity agree: `popcount mod 2` and the XOR of the 16 bits (R68). -/
theorem parityOf_eq_xorFold (v : Word) : parityOf v = xorFold v := by
  rw [xorFold, foldl_xor_eq_filter_odd]
  simp [parityOf, popcount]

theorem zeroOf_eq (v : Word) : zeroOf v = decide (v = 0#16) := by
  rw [zeroOf, Bool.eq_iff_iff]
  simp

/-- What the engine does after a handler is what Safety.lean says it does. -/
theorem finishStep_eq_afterHandler (u : State) : u.finishStep = afterHandler u := by
  show _ = { u with
    instructionsExecuted := u.instructionsExecuted + 1
    flags := { u.flags with p := xorFold u.acc, z := decide (u.acc = 0#16), s := u.acc.getLsbD 15 }
    pc := u.pc + 1 }
  rw [← parityOf_eq_xorFold, ← zeroOf_eq]
  rfl

theorem write_oneCellWritten (m : Memory 16) (a v : Word) : OneCellWritten m (m.write a v) a v :=
  ⟨Memory.read_write_same m a v, fun _ h => Memory.read_write_other m v h, Memory.write_wf a v⟩

theorem romClear_cons (c : Nat × BitVec 32) (m : Memory 32) :
    romClear (c :: m) = true ↔ c.2.toNat < 2 ^ 24 ∧ romClear m = true := by
  simp [romClear]

theorem romClear_erase {m : Memory 32} (a : Nat) (h : romClear m = true) : romClear (m.erase a) = true := by
  induction m with
  | nil => rfl
  | cons c m ih =>
    rw [romClear_cons] at h
    rw [Memory.erase]
    split
    · exact ih h.2
    · exact (romClear_cons _ _).mpr ⟨h.1, ih h.2⟩

theorem romClear_place {m : Memory 32} (a : Nat) {v : RomWord} (hv : v.toNat < 2 ^ 24) (h : romClear m = true) :
    romClear (m.place a v) = true := by
  induction m with
  | nil => exact (romClear_cons _ _).mpr ⟨hv, rfl⟩
  | cons c m ih =>
    rw [Memory.place]
    split
    · exact (romClear_cons _ _).mpr ⟨hv, h⟩
    · rw [romClear_cons] at h
      exact (romClear_cons _ _).mpr ⟨h.1, ih h.2⟩

/-- Storing a word of 24 bits keeps bits 31..24 of ROM clear (R61). -/
theorem romClear_set {m : Memory 32} (a : Nat) {v : RomWord} (hv : v.toNat < 2 ^ 24) (h : romClear m = true) :
    romClear (m.set a v) = true := by
  rw [Memory.set]
  split
  · exact romClear_erase a h
  · exact romClear_place a hv (romClear_erase a h)

end Sys2Proof.Machine
end

