-- ==== Sys2Proof/Laws/Image.lean ====
section
/-! SUPPORT. The image and its import, one law per function: where the stream is cut, how many records its bytes hold,
what the records leave in ROM (spec/30_encoding.md R57 to R61); what an import and a `run` can do
(spec/70_reset_and_hazards.md R132), and what the host reads (spec/60_exceptions.md R123, R128). -/

namespace Sys2Proof.Machine

theorem splitAtNul_none {l : List Byte} (h : 0#8 ∉ l) : splitAtNul l = none := by
  induction l with
  | nil => rfl
  | cons b l ih =>
    simp only [List.mem_cons, not_or] at h
    rw [splitAtNul, if_neg fun e => h.1 e.symm, ih h.2]

theorem splitAtNul_append {tag : List Byte} (body : List Byte) (h : 0#8 ∉ tag) :
    splitAtNul (tag ++ 0#8 :: body) = some (tag, body) := by
  induction tag with
  | nil => rfl
  | cons b l ih =>
    simp only [List.mem_cons, not_or] at h
    rw [List.cons_append, splitAtNul, if_neg fun e => h.1 e.symm, ih h.2]

/-- Bytes parse exactly when their number is a multiple of four, into a quarter as many records. -/
theorem parseRecords_length (n : Nat) (l : List Byte) (hn : l.length ≤ n) :
    match parseRecords l with
    | some rs => l.length = 4 * rs.length
    | none => l.length % 4 ≠ 0 := by
  induction n generalizing l with
  | zero => cases l with
    | nil => rfl
    | cons => simp at hn
  | succ n ih =>
    match l with
    | [] => rfl
    | [_] | [_, _] | [_, _, _] => simp [parseRecords]
    | _ :: _ :: _ :: _ :: r =>
      have := ih r (by simp only [List.length_cons] at hn; omega)
      rw [parseRecords]
      cases h : parseRecords r with
      | none => rw [h] at this; simp only [List.length_cons] at this ⊢; omega
      | some rs => rw [h] at this; simp only [List.length_cons] at this ⊢; omega

/-- Whole records parse to what `Record.ofBytes` reads from each. -/
theorem parseRecords_flatMap (qs : List (Byte × Byte × Byte × Byte)) :
    parseRecords (qs.flatMap fun b => [b.1, b.2.1, b.2.2.1, b.2.2.2]) =
      some (qs.map fun b => Record.ofBytes b.1 b.2.1 b.2.2.1 b.2.2.2) := by
  induction qs with
  | nil => rfl
  | cons q qs ih =>
    simp only [List.flatMap_cons, List.cons_append, List.nil_append, List.map_cons]
    rw [parseRecords, ih]

theorem parseImage_length {image : List Byte} {rs : List Record} (h : parseImage image = .ok rs) :
    rs.length ≤ Config.spaceCells := by
  rw [parseImage] at h
  split at h
  · cases h
  · split at h
    · split at h
      · cases h
      · split at h
        · cases h
          assumption
        · cases h
    · cases h

theorem Record.word_toNat_lt (r : Record) : r.word.toNat < 2 ^ 24 := by
  have hm : r.m.toNat < 2 := by cases r.m <;> decide
  have hv := r.v.isLt
  have ho := r.op8.isLt
  have h : r.v.toNat * 2 ^ 7 ||| r.op8.toNat < 2 ^ 23 := Nat.or_lt_two_pow (by omega) (by omega)
  rw [Record.word, encodeTriple_toNat hm hv ho]
  omega

/-- After storing records from `i` on, each record's cell holds its word and every other cell is as before. -/
theorem storeRecords_get (rs : List Record) (i : Nat) (m : Memory 32) (a : Nat) :
    (storeRecords i rs m).get a = if h : i ≤ a ∧ a - i < rs.length then (rs[a - i]'h.2).word else m.get a := by
  induction rs generalizing i m with
  | nil => simp [storeRecords]
  | cons r rs ih =>
    rw [storeRecords, ih]
    rcases Nat.lt_trichotomy a i with h | rfl | h
    · rw [dif_neg (by omega), dif_neg (by omega), Memory.get_set_other _ _ (by omega)]
    · rw [dif_neg (by omega), Memory.get_set_same, dif_pos ⟨by omega, by simp⟩]
      simp
    · have e : a - i = (a - (i + 1)) + 1 := by omega
      by_cases hl : a - (i + 1) < rs.length
      · rw [dif_pos ⟨by omega, hl⟩, dif_pos ⟨by omega, by simp only [List.length_cons]; omega⟩]
        simp [e]
      · rw [dif_neg (by omega), dif_neg (by simp only [List.length_cons]; omega),
          Memory.get_set_other _ _ (by omega)]

/-- Storing records inside the space keeps the canonical form and bits 31..24 clear. -/
theorem storeRecords_wf_clear (rs : List Record) (i : Nat) (m : Memory 32) (hl : i + rs.length ≤ Config.spaceCells)
    (hw : m.wf = true) (hc : romClear m = true) :
    (storeRecords i rs m).wf = true ∧ romClear (storeRecords i rs m) = true := by
  induction rs generalizing i m with
  | nil => exact ⟨hw, hc⟩
  | cons r rs ih =>
    simp only [List.length_cons] at hl
    exact ih (i + 1) _ (by omega) (Memory.set_wf _ (by omega) hw) (romClear_set _ r.word_toNat_lt hc)

/-- What an import can do: nothing, or the status moves on from blank, with ROM written only by a good image. -/
theorem State.importCode_cases (s : State) (image : List Byte) :
    s.imageStatus ≠ .blank ∧ s.importCode image = s ∨
    (∃ rs, s.imageStatus = .blank ∧ parseImage image = .ok rs ∧
      s.importCode image = { s with rom := storeRecords 0 rs s.rom, imageStatus := .loaded }) ∨
    (∃ e, s.imageStatus = .blank ∧ parseImage image = .error e ∧
      s.importCode image = { s with imageStatus := .failed }) := by
  cases h : s.imageStatus with
  | blank =>
    cases hp : parseImage image with
    | ok rs => exact .inr (.inl ⟨rs, rfl, rfl, by simp only [State.importCode, h, hp]⟩)
    | error e => exact .inr (.inr ⟨e, rfl, rfl, by simp only [State.importCode, h, hp]⟩)
  | closed => exact .inl ⟨nofun, by simp only [State.importCode, h]⟩
  | loaded => exact .inl ⟨nofun, by simp only [State.importCode, h]⟩
  | failed => exact .inl ⟨nofun, by simp only [State.importCode, h]⟩

/-- What the host's `run` can do: nothing after a failed import, else start a run, after which no import is made. -/
theorem State.hostRun_cases (s : State) :
    s.imageStatus = .failed ∧ s.hostRun = s ∨
    s.imageStatus = .blank ∧ s.hostRun = { s.startRun with imageStatus := .closed } ∨
    (s.imageStatus = .closed ∨ s.imageStatus = .loaded) ∧ s.hostRun = s.startRun := by
  cases h : s.imageStatus <;> simp [State.hostRun, h]

/-- No move of the host changes the machine's parameters. -/
@[simp] theorem State.hostMove_params (s : State) (m : HostMove) : (s.hostMove m).params = s.params := by
  cases m with
  | initializeMemory => rfl
  | importCode image => rcases s.importCode_cases image with ⟨_, h⟩ | ⟨_, _, _, h⟩ | ⟨_, _, _, h⟩ <;> simp [hostMove, h]
  | run => rcases s.hostRun_cases with ⟨_, h⟩ | ⟨_, h⟩ | ⟨_, h⟩ <;> simp [hostMove, h]
  | writePort p v => rfl

/-- A framebuffer cell inside `CACHE` is the cell that many places past the offset in port 1. -/
theorem hostReadFrameCell_inside {s : State} {i : Nat} (h : s.running = false)
    (hi : (s.ports.read 1#16).toNat + i < Config.spaceCells) :
    hostReadFrameCell s i = some (s.cache.read (s.ports.read 1#16 + BitVec.ofNat 16 i)) := by
  have e : BitVec.ofNat 16 ((s.ports.read 1#16).toNat + i) = s.ports.read 1#16 + BitVec.ofNat 16 i := by
    simp [BitVec.ofNat_add]
  simp only [hostReadFrameCell, if_pos hi, hostReadCache, betweenRuns, h, Bool.false_eq_true, if_false, e]

theorem hostReadFrameCell_past {s : State} {i : Nat} (hi : Config.spaceCells ≤ (s.ports.read 1#16).toNat + i) :
    hostReadFrameCell s i = none := by
  simp only [hostReadFrameCell, if_neg (Nat.not_lt.mpr hi)]

theorem hostDump_stopped {s : State} (h : s.running = false) :
    hostDump s = some ⟨s.cache.snapshot, s.valueStack.snapshot, s.addressStack.snapshot, s.ports.snapshot⟩ := by
  simp [hostDump, betweenRuns, h]

end Sys2Proof.Machine
end

