-- ==== Sys2Proof/Laws/PerInstr.lean ====
section
/-! SUPPORT. Facts about instructions as syntax, one lemma per constructor of Instr. -/

namespace Sys2Proof.Laws

/-- An instruction is rebuilt from its mnemonic and its operand: `Instr` has no other content. -/
def Rebuilt.Statement (i : Instr) : Prop := Instr.ofMnemonic i.mnemonic i.operand = i

/-- Every value of `M` and `V` is legal in every instruction (spec/30_encoding.md R55). -/
def WellFormedOperand.Statement (i : Instr) : Prop := i.wellFormed = true

theorem Rebuilt.load (o : Operand) : Rebuilt.Statement (.load o) := rfl
theorem Rebuilt.store (o : Operand) : Rebuilt.Statement (.store o) := rfl
theorem Rebuilt.loadp (o : Operand) : Rebuilt.Statement (.loadp o) := rfl
theorem Rebuilt.loadpr (o : Operand) : Rebuilt.Statement (.loadpr o) := rfl
theorem Rebuilt.storep (o : Operand) : Rebuilt.Statement (.storep o) := rfl
theorem Rebuilt.tapr (o : Operand) : Rebuilt.Statement (.tapr o) := rfl
theorem Rebuilt.push (o : Operand) : Rebuilt.Statement (.push o) := rfl
theorem Rebuilt.pop (o : Operand) : Rebuilt.Statement (.pop o) := rfl
theorem Rebuilt.call (o : Operand) : Rebuilt.Statement (.call o) := rfl
theorem Rebuilt.ret (o : Operand) : Rebuilt.Statement (.ret o) := rfl
theorem Rebuilt.jump (o : Operand) : Rebuilt.Statement (.jump o) := rfl
theorem Rebuilt.jumpc (o : Operand) : Rebuilt.Statement (.jumpc o) := rfl
theorem Rebuilt.clf (o : Operand) : Rebuilt.Statement (.clf o) := rfl
theorem Rebuilt.and (o : Operand) : Rebuilt.Statement (.and o) := rfl
theorem Rebuilt.or (o : Operand) : Rebuilt.Statement (.or o) := rfl
theorem Rebuilt.xor (o : Operand) : Rebuilt.Statement (.xor o) := rfl
theorem Rebuilt.lsl (o : Operand) : Rebuilt.Statement (.lsl o) := rfl
theorem Rebuilt.lsr (o : Operand) : Rebuilt.Statement (.lsr o) := rfl
theorem Rebuilt.rol (o : Operand) : Rebuilt.Statement (.rol o) := rfl
theorem Rebuilt.ror (o : Operand) : Rebuilt.Statement (.ror o) := rfl
theorem Rebuilt.comp (o : Operand) : Rebuilt.Statement (.comp o) := rfl
theorem Rebuilt.add (o : Operand) : Rebuilt.Statement (.add o) := rfl
theorem Rebuilt.sub (o : Operand) : Rebuilt.Statement (.sub o) := rfl
theorem Rebuilt.addc (o : Operand) : Rebuilt.Statement (.addc o) := rfl
theorem Rebuilt.subc (o : Operand) : Rebuilt.Statement (.subc o) := rfl
theorem Rebuilt.inc (o : Operand) : Rebuilt.Statement (.inc o) := rfl
theorem Rebuilt.dec (o : Operand) : Rebuilt.Statement (.dec o) := rfl
theorem Rebuilt.mul (o : Operand) : Rebuilt.Statement (.mul o) := rfl
theorem Rebuilt.div (o : Operand) : Rebuilt.Statement (.div o) := rfl
theorem Rebuilt.mod (o : Operand) : Rebuilt.Statement (.mod o) := rfl
theorem Rebuilt.portw (o : Operand) : Rebuilt.Statement (.portw o) := rfl
theorem Rebuilt.portr (o : Operand) : Rebuilt.Statement (.portr o) := rfl
theorem Rebuilt.int (o : Operand) : Rebuilt.Statement (.int o) := rfl
theorem Rebuilt.halt (o : Operand) : Rebuilt.Statement (.halt o) := rfl

/-- Both fields of an operand fit the word. -/
theorem operand_wellFormed (o : Operand) : o.wellFormed = true := by
  have hv : o.value.toNat < 65536 := o.value.isLt
  have hm : o.flag.toNat < 2 := by cases o.flag <;> decide
  simp [Operand.wellFormed, Operand.triple, Triple.flagOk, Triple.valueOk, hv, hm]

theorem WellFormedOperand.load (o : Operand) : WellFormedOperand.Statement (.load o) := operand_wellFormed o
theorem WellFormedOperand.store (o : Operand) : WellFormedOperand.Statement (.store o) := operand_wellFormed o
theorem WellFormedOperand.loadp (o : Operand) : WellFormedOperand.Statement (.loadp o) := operand_wellFormed o
theorem WellFormedOperand.loadpr (o : Operand) : WellFormedOperand.Statement (.loadpr o) := operand_wellFormed o
theorem WellFormedOperand.storep (o : Operand) : WellFormedOperand.Statement (.storep o) := operand_wellFormed o
theorem WellFormedOperand.tapr (o : Operand) : WellFormedOperand.Statement (.tapr o) := operand_wellFormed o
theorem WellFormedOperand.push (o : Operand) : WellFormedOperand.Statement (.push o) := operand_wellFormed o
theorem WellFormedOperand.pop (o : Operand) : WellFormedOperand.Statement (.pop o) := operand_wellFormed o
theorem WellFormedOperand.call (o : Operand) : WellFormedOperand.Statement (.call o) := operand_wellFormed o
theorem WellFormedOperand.ret (o : Operand) : WellFormedOperand.Statement (.ret o) := operand_wellFormed o
theorem WellFormedOperand.jump (o : Operand) : WellFormedOperand.Statement (.jump o) := operand_wellFormed o
theorem WellFormedOperand.jumpc (o : Operand) : WellFormedOperand.Statement (.jumpc o) := operand_wellFormed o
theorem WellFormedOperand.clf (o : Operand) : WellFormedOperand.Statement (.clf o) := operand_wellFormed o
theorem WellFormedOperand.and (o : Operand) : WellFormedOperand.Statement (.and o) := operand_wellFormed o
theorem WellFormedOperand.or (o : Operand) : WellFormedOperand.Statement (.or o) := operand_wellFormed o
theorem WellFormedOperand.xor (o : Operand) : WellFormedOperand.Statement (.xor o) := operand_wellFormed o
theorem WellFormedOperand.lsl (o : Operand) : WellFormedOperand.Statement (.lsl o) := operand_wellFormed o
theorem WellFormedOperand.lsr (o : Operand) : WellFormedOperand.Statement (.lsr o) := operand_wellFormed o
theorem WellFormedOperand.rol (o : Operand) : WellFormedOperand.Statement (.rol o) := operand_wellFormed o
theorem WellFormedOperand.ror (o : Operand) : WellFormedOperand.Statement (.ror o) := operand_wellFormed o
theorem WellFormedOperand.comp (o : Operand) : WellFormedOperand.Statement (.comp o) := operand_wellFormed o
theorem WellFormedOperand.add (o : Operand) : WellFormedOperand.Statement (.add o) := operand_wellFormed o
theorem WellFormedOperand.sub (o : Operand) : WellFormedOperand.Statement (.sub o) := operand_wellFormed o
theorem WellFormedOperand.addc (o : Operand) : WellFormedOperand.Statement (.addc o) := operand_wellFormed o
theorem WellFormedOperand.subc (o : Operand) : WellFormedOperand.Statement (.subc o) := operand_wellFormed o
theorem WellFormedOperand.inc (o : Operand) : WellFormedOperand.Statement (.inc o) := operand_wellFormed o
theorem WellFormedOperand.dec (o : Operand) : WellFormedOperand.Statement (.dec o) := operand_wellFormed o
theorem WellFormedOperand.mul (o : Operand) : WellFormedOperand.Statement (.mul o) := operand_wellFormed o
theorem WellFormedOperand.div (o : Operand) : WellFormedOperand.Statement (.div o) := operand_wellFormed o
theorem WellFormedOperand.mod (o : Operand) : WellFormedOperand.Statement (.mod o) := operand_wellFormed o
theorem WellFormedOperand.portw (o : Operand) : WellFormedOperand.Statement (.portw o) := operand_wellFormed o
theorem WellFormedOperand.portr (o : Operand) : WellFormedOperand.Statement (.portr o) := operand_wellFormed o
theorem WellFormedOperand.int (o : Operand) : WellFormedOperand.Statement (.int o) := operand_wellFormed o
theorem WellFormedOperand.halt (o : Operand) : WellFormedOperand.Statement (.halt o) := operand_wellFormed o

theorem ofMnemonic_mnemonic_operand (i : Instr) : Instr.ofMnemonic i.mnemonic i.operand = i := by
  cases i <;> rfl

end Sys2Proof.Laws
end

