-- ==== Sys2Proof/Tests/Slice0.lean ====
section
/-! SUPPORT. The model's own tests. Expected values come from spec/95_test_vectors.md (a test's name holds the vector's
id) or are written out from the encodings of spec/30_encoding.md. Then the witnesses: for every obligation with
hypotheses, a concrete state and operands that meet them all. -/

namespace Sys2Proof.Tests

open Sys2Proof.Machine

/-- The next state of a step. -/
def after (s : State) : Option State :=
  match step s with
  | .next t => some t
  | .fault _ => none
  | .refused _ => none

/-- A state in a run with the word `w` at `pc`, everything else as after reset. -/
def atPc (pc : Word) (w : RomWord) : State :=
  { State.reset with running := true, imageStatus := .loaded, pc := pc, rom := [(pc.toNat, w)] }

/-- The vectors' start: the word at address 10. -/
def mid (w : RomWord) : State := atPc 10#16 w

/-! ## Well-formedness: each check refuses an ill-formed term -/

theorem test_flag_two_refused : (⟨2, 0, 1⟩ : Triple).flagOk = false := by decide
theorem test_value_65536_refused : (⟨0, 65536, 1⟩ : Triple).valueOk = false := by decide
theorem test_opcode_128_refused : (⟨0, 0, 128⟩ : Triple).opcodeOk = false := by decide
theorem test_triple_refused : (⟨1, 65535, 128⟩ : Triple).wellFormed = false := by decide
theorem test_triple_accepted : (⟨1, 65535, 127⟩ : Triple).wellFormed = true := by decide
theorem test_operand_fields_fit : (Operand.indirect 65535#16).wellFormed = true := by decide
theorem test_map_with_shared_slot_refused : OpcodeMap.injectiveOk (fun _ => 1#7) = false := by decide
theorem test_map_with_63_refused :
    OpcodeMap.leaves63 (fun n => if n = .halt then 63#7 else defaultOpcodeMap n) = false := by decide
theorem test_default_map_admissible : defaultOpcodeMap.admissible = true := by decide
theorem test_trap_code_128_refused :
    Config.Params.trapCodeOk { defaultParams with trapExitCode := 128 } = false := by decide
theorem test_divzero_code_of_int_refused :
    Config.Params.divZeroCodeOk { defaultParams with divZeroExitCode := 7 } = false := by decide
theorem test_divzero_code_of_trap_refused :
    Config.Params.wellFormed { defaultParams with divZeroExitCode := -1 } = false := by decide
theorem test_params_with_shared_slot_refused :
    Config.Params.wellFormed { defaultParams with opcodeNumbers := Vector.replicate 34 1#7 } = false := by decide
theorem test_params_accepted : defaultParams.wellFormed = true := by decide

/-! ## Decoding: every constructor from a word written out as bits 31..24, M, V, OP -/

theorem test_decode_data_transfer :
    decode 0b00000000_1_1001000000100010_0000001#32 = .instr (.load (.indirect 36898#16)) ∧
    decode 0b00000000_0_1010000001000011_0000010#32 = .instr (.store (.immediate 41027#16)) ∧
    decode 0b00000000_1_1011000001100100_0000011#32 = .instr (.loadp (.indirect 45156#16)) ∧
    decode 0b00000000_0_1100000010000101_0000100#32 = .instr (.loadpr (.immediate 49285#16)) ∧
    decode 0b00000000_1_1101000010100110_0000101#32 = .instr (.storep (.indirect 53414#16)) ∧
    decode 0b00000000_0_1110000011000111_0000110#32 = .instr (.tapr (.immediate 57543#16)) ∧
    decode 0b00000000_1_1111000011101000_0000111#32 = .instr (.push (.indirect 61672#16)) ∧
    decode 0b00000000_0_0000000100001001_0001000#32 = .instr (.pop (.immediate 265#16)) := by
  decide

theorem test_decode_control_transfer :
    decode 0b00000000_1_0001000100101010_0001001#32 = .instr (.call (.indirect 4394#16)) ∧
    decode 0b00000000_0_0010000101001011_0001010#32 = .instr (.ret (.immediate 8523#16)) ∧
    decode 0b00000000_1_0011000101101100_0001011#32 = .instr (.jump (.indirect 12652#16)) ∧
    decode 0b00000000_0_0100000110001101_0001100#32 = .instr (.jumpc (.immediate 16781#16)) := by
  decide

theorem test_decode_flags_logic_shift :
    decode 0b00000000_1_0101000110101110_0001101#32 = .instr (.clf (.indirect 20910#16)) ∧
    decode 0b00000000_0_0110000111001111_0001110#32 = .instr (.and (.immediate 25039#16)) ∧
    decode 0b00000000_1_0111000111110000_0001111#32 = .instr (.or (.indirect 29168#16)) ∧
    decode 0b00000000_0_1000001000010001_0010000#32 = .instr (.xor (.immediate 33297#16)) ∧
    decode 0b00000000_1_1001001000110010_0010001#32 = .instr (.lsl (.indirect 37426#16)) ∧
    decode 0b00000000_0_1010001001010011_0010010#32 = .instr (.lsr (.immediate 41555#16)) ∧
    decode 0b00000000_1_1011001001110100_0010011#32 = .instr (.rol (.indirect 45684#16)) ∧
    decode 0b00000000_0_1100001010010101_0010100#32 = .instr (.ror (.immediate 49813#16)) ∧
    decode 0b00000000_1_1101001010110110_0010101#32 = .instr (.comp (.indirect 53942#16)) := by
  decide

theorem test_decode_arithmetic :
    decode 0b00000000_0_1110001011010111_0010110#32 = .instr (.add (.immediate 58071#16)) ∧
    decode 0b00000000_1_1111001011111000_0010111#32 = .instr (.sub (.indirect 62200#16)) ∧
    decode 0b00000000_0_0000001100011001_0011000#32 = .instr (.addc (.immediate 793#16)) ∧
    decode 0b00000000_1_0001001100111010_0011001#32 = .instr (.subc (.indirect 4922#16)) ∧
    decode 0b00000000_0_0010001101011011_0011010#32 = .instr (.inc (.immediate 9051#16)) ∧
    decode 0b00000000_1_0011001101111100_0011011#32 = .instr (.dec (.indirect 13180#16)) ∧
    decode 0b00000000_0_0100001110011101_0011100#32 = .instr (.mul (.immediate 17309#16)) ∧
    decode 0b00000000_1_0101001110111110_0011101#32 = .instr (.div (.indirect 21438#16)) ∧
    decode 0b00000000_0_0110001111011111_0011110#32 = .instr (.mod (.immediate 25567#16)) := by
  decide

theorem test_decode_port_system :
    decode 0b00000000_1_0111010000000000_0011111#32 = .instr (.portw (.indirect 29696#16)) ∧
    decode 0b00000000_0_1000010000100001_0100000#32 = .instr (.portr (.immediate 33825#16)) ∧
    decode 0b00000000_1_1001010001000010_0100001#32 = .instr (.int (.indirect 37954#16)) ∧
    decode 0b00000000_0_1010010001100011_0100010#32 = .instr (.halt (.immediate 42083#16)) := by
  decide

theorem test_decode_ignores_top_byte :
    decode 0b11111111_0_0000000000000001_0000001#32 = .instr (.load (.immediate 1#16)) := by decide
theorem test_decode_unclaimed : decode 0b00000000_0_0000000000000000_0111111#32 = .unknownOpcode 63#7 := by decide
theorem test_table_word : decodeTableWord 32 0x00803296 = some (.add (.indirect 101#16)) := by decide
theorem test_ENC_1 : encodeTriple ⟨1, 0x1234, 0x55⟩ = 0x00891A55#32 := by decide
theorem test_ENC_5 : encodeTriple ⟨0, 0x1234, 0x81⟩ = 0x00091A81#32 := by decide
theorem test_ENC_7 : encode (.add (.indirect 101#16)) = 0x00803296#32 := by decide

/-! ## Data transfer -/

theorem test_DT_2_load :
    ((after (mid 0x00400001#32)).map fun t => (t.acc, t.flags.toWord, t.pc)) =
      some (32768#16, 10#16, 11#16) := by
  decide

theorem test_DT_4_load :
    ((after ({ mid 0x00800381#32 with cache := [(7, 4660#16)] })).map fun t => (t.acc, t.flags.toWord, t.pc)) =
      some (4660#16, 2#16, 11#16) := by
  decide

theorem test_DT_5_store :
    ((after ({ mid 0x00009602#32 with acc := 0xbeef#16 })).map fun t => (t.acc, t.flags.toWord, t.pc, t.cache.read 300#16)) =
      some (48879#16, 10#16, 11#16, 48879#16) := by
  decide

theorem test_DT_6_store :
    ((after ({ mid 0x00800282#32 with acc := 9#16, cache := [(5, 40#16)] })).map fun t => (t.acc, t.flags.toWord, t.pc, t.cache.read 40#16, t.cache.read 5#16)) =
      some (9#16, 0#16, 11#16, 9#16, 40#16) := by
  decide

theorem test_DT_7_loadp :
    ((after ({ mid 0x00000003#32 with acc := 12#16, cache := [(12, 255#16)] })).map fun t => (t.acc, t.flags.toWord, t.pc)) =
      some (255#16, 0#16, 11#16) := by
  decide

theorem test_DT_8_loadp :
    ((after ({ mid 0x00800183#32 with acc := 12#16, cache := [(12, 7#16)] })).map fun t => (t.acc, t.flags.toWord, t.pc)) =
      some (7#16, 2#16, 11#16) := by
  decide

theorem test_DT_9_loadpr :
    ((after (mid 0x00200004#32)).map fun t => (t.acc, t.flags.toWord, t.pc, t.pr)) =
      some (0#16, 4#16, 11#16, 16384#16) := by
  decide

theorem test_DT_10_storep :
    ((after ({ mid 0x00000005#32 with acc := 77#16, pr := 0xffff#16 })).map fun t => (t.acc, t.flags.toWord, t.pc, t.cache.read 65535#16)) =
      some (77#16, 0#16, 11#16, 77#16) := by
  decide

theorem test_DT_11_tapr :
    ((after ({ mid 0x00000006#32 with acc := 0xabcd#16 })).map fun t => (t.acc, t.flags.toWord, t.pc, t.pr)) =
      some (43981#16, 8#16, 11#16, 43981#16) := by
  decide

theorem test_DT_12_push :
    ((after ({ mid 0x00000007#32 with acc := 5#16 })).map fun t => (t.acc, t.flags.toWord, t.pc, t.sp, t.valueStack.read 0#16)) =
      some (5#16, 0#16, 11#16, 1#16, 5#16) := by
  decide

theorem test_DT_13_push :
    ((after ({ mid 0x00000007#32 with acc := 6#16, sp := 0xffff#16 })).map fun t => (t.acc, t.flags.toWord, t.pc, t.sp, t.valueStack.read 65535#16)) =
      some (6#16, 0#16, 11#16, 0#16, 6#16) := by
  decide

theorem test_DT_14_pop :
    ((after ({ mid 0x00000008#32 with sp := 1#16, valueStack := [(0, 42#16)] })).map fun t => (t.acc, t.flags.toWord, t.pc, t.sp)) =
      some (42#16, 2#16, 11#16, 0#16) := by
  decide

theorem test_DT_15_pop :
    ((after ({ mid 0x00000008#32 with valueStack := [(65535, 32768#16)] })).map fun t => (t.acc, t.flags.toWord, t.pc, t.sp)) =
      some (32768#16, 10#16, 11#16, 65535#16) := by
  decide

/-! ## Control transfer -/

theorem test_CT_1_call :
    ((after (atPc 3#16 0x00000509#32)).map fun t => (t.pc, t.asp, t.addressStack.read 0#16, t.flags.toWord)) =
      some (10#16, 1#16, 3#16, 4#16) := by
  decide

theorem test_CT_2_call :
    ((after ({ atPc 0xffff#16 0x00000009#32 with asp := 0xffff#16 })).map fun t => (t.pc, t.asp, t.addressStack.read 65535#16)) =
      some (0#16, 0#16, 65535#16) := by
  decide

theorem test_CT_3_ret :
    ((after ({ mid 0x0000000A#32 with asp := 1#16, addressStack := [(0, 3#16)] })).map fun t => (t.pc, t.asp)) =
      some (4#16, 0#16) := by
  decide

theorem test_CT_4_ret :
    ((after ({ mid 0x0000000A#32 with addressStack := [(65535, 65535#16)] })).map fun t => (t.pc, t.asp)) =
      some (0#16, 65535#16) := by
  decide

theorem test_CT_5_jump :
    ((after (mid 0x0000000B#32)).map fun t => (t.pc)) =
      some (0#16) := by
  decide

theorem test_CT_6_jump :
    ((after (mid 0x0000050B#32)).map fun t => (t.pc)) =
      some (10#16) := by
  decide

theorem test_CT_9_jumpc :
    ((after ({ mid 0x007FE00C#32 with pr := 100#16, flags := ⟨true, true, true, true, true, true⟩ })).map fun t => (t.pc, t.flags.toWord)) =
      some (11#16, 53#16) := by
  decide

theorem test_CT_13_jumpc :
    ((after ({ mid 0x0080030C#32 with pr := 100#16, flags := ⟨true, false, false, false, false, false⟩, cache := [(6, 1#16)] })).map fun t => (t.pc, t.flags.toWord)) =
      some (100#16, 5#16) := by
  decide

/-! ## Flags, logic, shifts, comparison -/

theorem test_LS_1_clf :
    ((after ({ mid 0x0000000D#32 with flags := ⟨true, true, true, true, true, true⟩ })).map fun t => (t.acc, t.flags.toWord, t.pc)) =
      some (0#16, 4#16, 11#16) := by
  decide

theorem test_LS_2_clf :
    ((after ({ mid 0x0000000D#32 with acc := 0x8001#16, flags := ⟨true, false, false, false, true, true⟩ })).map fun t => (t.acc, t.flags.toWord, t.pc)) =
      some (32769#16, 8#16, 11#16) := by
  decide

theorem test_LS_3_and :
    ((after ({ mid 0x0007F80E#32 with acc := 0xf0f0#16 })).map fun t => (t.acc, t.flags.toWord, t.pc)) =
      some (240#16, 0#16, 11#16) := by
  decide

theorem test_LS_4_or :
    ((after (mid 0x0078078F#32)).map fun t => (t.acc, t.flags.toWord, t.pc)) =
      some (61455#16, 8#16, 11#16) := by
  decide

theorem test_LS_5_xor :
    ((after ({ mid 0x007FFF90#32 with acc := 0xffff#16 })).map fun t => (t.acc, t.flags.toWord, t.pc)) =
      some (0#16, 4#16, 11#16) := by
  decide

theorem test_LS_6_and :
    ((after ({ mid 0x0000000E#32 with acc := 0x1234#16, flags := ⟨true, false, false, false, false, false⟩ })).map fun t => (t.acc, t.flags.toWord, t.pc)) =
      some (0#16, 5#16, 11#16) := by
  decide

theorem test_LS_7_lsl :
    ((after ({ mid 0x00000091#32 with acc := 0xc001#16 })).map fun t => (t.acc, t.flags.toWord, t.pc)) =
      some (32770#16, 24#16, 11#16) := by
  decide

theorem test_LS_11_lsl :
    ((after ({ mid 0x004E2011#32 with acc := 0xffff#16 })).map fun t => (t.acc, t.flags.toWord, t.pc)) =
      some (0#16, 20#16, 11#16) := by
  decide

theorem test_LS_12_lsr :
    ((after ({ mid 0x00000092#32 with acc := 3#16 })).map fun t => (t.acc, t.flags.toWord, t.pc)) =
      some (1#16, 34#16, 11#16) := by
  decide

theorem test_LS_14_lsr :
    ((after ({ mid 0x00000812#32 with acc := 0xfffe#16, flags := ⟨false, false, false, false, false, true⟩ })).map fun t => (t.acc, t.flags.toWord, t.pc)) =
      some (0#16, 4#16, 11#16) := by
  decide

theorem test_LS_17_rol :
    ((after ({ mid 0x00000213#32 with acc := 0x1234#16 })).map fun t => (t.acc, t.flags.toWord, t.pc)) =
      some (9025#16, 2#16, 11#16) := by
  decide

theorem test_LS_19_rol :
    ((after ({ mid 0x00000A13#32 with acc := 0x1234#16 })).map fun t => (t.acc, t.flags.toWord, t.pc)) =
      some (9025#16, 2#16, 11#16) := by
  decide

theorem test_LS_21_ror :
    ((after ({ mid 0x00000214#32 with acc := 0x1234#16 })).map fun t => (t.acc, t.flags.toWord, t.pc)) =
      some (16675#16, 2#16, 11#16) := by
  decide

theorem test_LS_23_ror :
    ((after ({ mid 0x00000894#32 with acc := 1#16 })).map fun t => (t.acc, t.flags.toWord, t.pc)) =
      some (32768#16, 10#16, 11#16) := by
  decide

theorem test_LS_24_comp :
    ((after ({ mid 0x00000295#32 with acc := 3#16 })).map fun t => (t.acc, t.flags.toWord, t.pc)) =
      some (65535#16, 8#16, 11#16) := by
  decide

theorem test_LS_26_comp :
    ((after ({ mid 0x00000195#32 with acc := 5#16 })).map fun t => (t.acc, t.flags.toWord, t.pc)) =
      some (1#16, 2#16, 11#16) := by
  decide

/-! ## Arithmetic -/

theorem test_AR_1_add :
    ((after ({ mid 0x00138816#32 with acc := 0xea60#16 })).map fun t => (t.acc, t.flags.toWord, t.pc)) =
      some (4464#16, 3#16, 11#16) := by
  decide

theorem test_AR_2_add :
    ((after ({ mid 0x00001916#32 with acc := 100#16, flags := ⟨true, false, false, false, false, false⟩ })).map fun t => (t.acc, t.flags.toWord, t.pc)) =
      some (150#16, 0#16, 11#16) := by
  decide

theorem test_AR_6_sub :
    ((after ({ mid 0x00000297#32 with acc := 3#16 })).map fun t => (t.acc, t.flags.toWord, t.pc)) =
      some (65534#16, 11#16, 11#16) := by
  decide

theorem test_AR_7_sub :
    ((after ({ mid 0x00000017#32 with flags := ⟨true, false, false, false, false, false⟩ })).map fun t => (t.acc, t.flags.toWord, t.pc)) =
      some (0#16, 4#16, 11#16) := by
  decide

theorem test_AR_9_addc :
    ((after ({ mid 0x00000018#32 with acc := 0xffff#16, flags := ⟨true, false, false, false, false, false⟩ })).map fun t => (t.acc, t.flags.toWord, t.pc)) =
      some (0#16, 5#16, 11#16) := by
  decide

theorem test_AR_10_addc :
    ((after ({ mid 0x007FFF98#32 with acc := 0xffff#16, flags := ⟨true, false, false, false, false, false⟩ })).map fun t => (t.acc, t.flags.toWord, t.pc)) =
      some (65535#16, 9#16, 11#16) := by
  decide

theorem test_AR_12_subc :
    ((after ({ mid 0x00000019#32 with flags := ⟨true, false, false, false, false, false⟩ })).map fun t => (t.acc, t.flags.toWord, t.pc)) =
      some (65535#16, 9#16, 11#16) := by
  decide

theorem test_AR_15_subc :
    ((after ({ mid 0x007FFF99#32 with flags := ⟨true, false, false, false, false, false⟩ })).map fun t => (t.acc, t.flags.toWord, t.pc)) =
      some (0#16, 5#16, 11#16) := by
  decide

theorem test_AR_16_inc :
    ((after ({ mid 0x0000001A#32 with acc := 0xffff#16 })).map fun t => (t.acc, t.flags.toWord, t.pc)) =
      some (0#16, 5#16, 11#16) := by
  decide

theorem test_AR_17_inc :
    ((after ({ mid 0x0000001A#32 with acc := 0x7fff#16, flags := ⟨true, false, false, false, false, false⟩ })).map fun t => (t.acc, t.flags.toWord, t.pc)) =
      some (32768#16, 10#16, 11#16) := by
  decide

theorem test_AR_18_dec :
    ((after (mid 0x0000001B#32)).map fun t => (t.acc, t.flags.toWord, t.pc)) =
      some (65535#16, 9#16, 11#16) := by
  decide

theorem test_AR_19_dec :
    ((after ({ mid 0x0000001B#32 with acc := 1#16, flags := ⟨true, false, false, false, false, false⟩ })).map fun t => (t.acc, t.flags.toWord, t.pc)) =
      some (0#16, 4#16, 11#16) := by
  decide

theorem test_AR_20_mul :
    ((after ({ mid 0x0000961C#32 with acc := 0x12c#16 })).map fun t => (t.acc, t.flags.toWord, t.pc)) =
      some (24464#16, 16#16, 11#16) := by
  decide

theorem test_AR_21_mul :
    ((after ({ mid 0x0000809C#32 with acc := 255#16 })).map fun t => (t.acc, t.flags.toWord, t.pc)) =
      some (65535#16, 8#16, 11#16) := by
  decide

theorem test_AR_24_div :
    ((after ({ mid 0x0000029D#32 with acc := 17#16 })).map fun t => (t.acc, t.flags.toWord, t.pc)) =
      some (3#16, 0#16, 11#16) := by
  decide

theorem test_AR_28_mod :
    ((after ({ mid 0x0000029E#32 with acc := 17#16 })).map fun t => (t.acc, t.flags.toWord, t.pc)) =
      some (2#16, 2#16, 11#16) := by
  decide

theorem test_AR_31_mod :
    ((after ({ mid 0x0000001E#32 with acc := 17#16 })).map fun t => (t.acc, t.flags.toWord, t.pc, t.running, t.exitCode, t.instructionsExecuted)) =
      some (17#16, 0#16, 11#16, false, (-2 : Int), 1) := by
  decide

theorem test_AR_32_div :
    ((after ({ mid 0x0080049D#32 with acc := 100#16 })).map fun t => (t.acc, t.flags.toWord, t.pc, t.running, t.exitCode)) =
      some (100#16, 2#16, 11#16, false, (-2 : Int)) := by
  decide

/-! ## Ports and stops -/

theorem test_PS_1_portw :
    ((after ({ mid 0x0000011F#32 with acc := 0x55aa#16 })).map fun t => (t.acc, t.flags.toWord, t.pc, t.ports.read 2#16, t.running)) =
      some (21930#16, 0#16, 11#16, 21930#16, true) := by
  decide

theorem test_PS_2_portr :
    ((after ({ mid 0x000004A0#32 with ports := [(9, 257#16)] })).map fun t => (t.acc, t.flags.toWord, t.pc, t.running)) =
      some (257#16, 0#16, 11#16, true) := by
  decide

theorem test_PS_3_portw :
    ((after ({ mid 0x0080021F#32 with acc := 7#16, cache := [(4, 65535#16)] })).map fun t => (t.acc, t.flags.toWord, t.pc, t.ports.read 65535#16)) =
      some (7#16, 2#16, 11#16, 7#16) := by
  decide

theorem test_PS_4_int :
    ((after (mid 0x00004021#32)).map fun t => (t.acc, t.flags.toWord, t.pc, t.running, t.exitCode, t.instructionsExecuted)) =
      some (0#16, 4#16, 11#16, false, (128 : Int), 1) := by
  decide

theorem test_PS_7_halt :
    ((after ({ mid 0x00000022#32 with acc := 3#16, flags := ⟨true, false, false, false, false, false⟩ })).map fun t => (t.acc, t.flags.toWord, t.pc, t.running, t.exitCode)) =
      some (3#16, 1#16, 11#16, false, (0 : Int)) := by
  decide

theorem test_PS_8_int :
    ((after ({ mid 0x008000A1#32 with cache := [(1, 128#16)] })).map fun t => (t.acc, t.flags.toWord, t.pc, t.exitCode)) =
      some (0#16, 4#16, 11#16, (128 : Int)) := by
  decide

/-! ## Unknown opcodes -/

theorem test_EX_1_trap :
    ((after (mid 0x0000003F#32)).map fun t => (t.acc, t.flags.toWord, t.pc, t.running, t.exitCode, t.instructionsExecuted)) =
      some (0#16, 4#16, 11#16, false, (-1 : Int), 1) := by
  decide

theorem test_EX_3_trap :
    ((after ({ mid 0x008002BF#32 with cache := [(5, 1#16)] })).map fun t => (t.acc, t.flags.toWord, t.pc, t.running, t.exitCode, t.instructionsExecuted)) =
      some (0#16, 4#16, 11#16, false, (-1 : Int), 1) := by
  decide

/-! ## Another machine: other values of the parameters -/

/-- Opcodes 126 down to 93, a trap code that `int 9` gives too, and `push` of the bus value. -/
def otherParams : Config.Params where
  opcodeNumbers := OpcodeMap.numbers fun n => 127#7 - defaultOpcodeMap n
  trapExitCode := 9
  divZeroExitCode := -7
  pushSource := .bus

/-- The other machine in a run with the word `w` at address 10. -/
def other (w : RomWord) : State :=
  { State.resetWith otherParams with running := true, imageStatus := .loaded, pc := 10#16, rom := [(10, w)] }

theorem test_other_params_accepted : otherParams.wellFormed = true := by decide

/-- `push 5` is `V = 5`, `OP = 127 - 7`: R81 with `PUSH_SOURCE = bus`, R52 with another numbering. -/
theorem test_other_push :
    ((after (other 0b00000000_0_0000000000000101_1111000#32)).map fun t => (t.valueStack.read 0#16, t.sp)) =
      some (5#16, 1#16) := by
  decide

/-- The word of the default `load 1` has no handler there: R54, R113. -/
theorem test_other_trap :
    ((after (other 0x00000081#32)).map fun t => (t.running, t.exitCode)) = some (false, (9 : Int)) := by decide

/-- `div 0` is `OP = 127 - 29`: R114. -/
theorem test_other_div_zero :
    ((after (other 0b00000000_0_0000000000000000_1100010#32)).map fun t => (t.running, t.exitCode)) =
      some (false, (-7 : Int)) := by
  decide

/-! ## Reset, the image and the host -/

theorem test_fetch_word_runs_first :
    ((after (State.reset.withFetchWord 32 0x00400001)).map fun t => (t.acc, t.pc, t.instructionsExecuted)) =
      some (0x8000#16, 1#16, 1) := by
  decide

/-- CT-10: straight after reset Z is clear although `ACC` is 0, so `jumpc 4` does not jump. -/
theorem test_CT_10_reset_quirk :
    ((after (State.reset.withFetchWord 32 0x0000020C)).map fun t => (t.pc, t.flags.toWord)) = some (1#16, 4#16) := by
  decide

/-- A core after reset with host moves pending. -/
def pending (h : List HostMove) : State := { State.reset with hostMoves := h }

theorem test_IMG_1 :
    ((after (pending [.importCode [0x51, 0x54, 0x00, 0x00, 0x12, 0x34, 0x81]])).map fun t => (t.rom, t.imageStatus)) =
      some ([(0, 0x00091A81#32)], ImageStatus.loaded) := by
  decide
theorem test_IMG_2 :
    ((after (pending [.importCode [0x51, 0x54, 0x00, 0xFE, 0x00, 0x05, 0x01]])).map fun t => t.rom) =
      some [(0, 0x00000281#32)] := by
  decide
theorem test_IMG_4 : parseImage [0x51, 0x4D, 0x00] = .error .unsupportedTag := by rfl
theorem test_IMG_6 : parseImage [0x51, 0x54, 0x00, 0x00, 0x00, 0x05] = .error .truncatedRecord := by rfl
theorem test_IMG_7 : parseImage [0x51, 0x54] = .error .missingNul := by rfl
theorem test_IMG_9 :
    ((after { pending [.importCode [0x51, 0x54, 0x00]] with rom := [(0, 0x00091A81#32)], imageStatus := .loaded }).map
      fun t => (t.rom, t.imageStatus)) = some ([(0, 0x00091A81#32)], ImageStatus.loaded) := by
  decide

/-- R132: a run with nothing imported comes after the import's place in the boot order. -/
theorem test_import_after_run_refused :
    ((after (pending [.run])).map fun t => (t.running, t.imageStatus)) = some (true, ImageStatus.closed) ∧
    ((after { pending [.importCode [0x51, 0x54, 0x00, 0x00, 0x12, 0x34, 0x01]] with imageStatus := .closed }).map
      fun t => (t.rom, t.imageStatus)) = some ([], ImageStatus.closed) := by
  decide

/-- R131: a reset keeps the machine's parameters. -/
theorem test_reset_keeps_params :
    ((after { other 0#32 with running := false, acc := 7#16, hostMoves := [.initializeMemory] }).map
      fun t => (t.acc, t.params)) = some (0#16, otherParams) := by
  decide
theorem test_run_starts :
    ((after { pending [.run] with instructionsExecuted := 7 }).map fun t => (t.running, t.instructionsExecuted)) =
      some (true, 0) := by
  decide
theorem test_no_run_after_load_error :
    ((after { pending [.run] with imageStatus := .failed }).map fun t => t.running) = some false := by
  decide
theorem test_port_write : ((after (pending [.writePort 9 0x0101])).map fun t => t.ports.read 9#16) = some 0x0101#16 := by
  decide
theorem test_yield_names_the_screen :
    requestedModule { State.reset with exitCode := 128, ports := [(0, 1#16)] } = some .screen := by
  decide


/-- R123: port 1 is a packed size on first use and a cache offset later; port 2 = 8 is 8-bit grayscale. -/
theorem test_screen_request :
    let s := { State.reset with exitCode := 128, ports := [(0, 1#16), (1, 0x4020#16), (2, 8#16)] }
    screenRequest false s = some ⟨.screenSize 64 32, some .grayscale8⟩ ∧
    screenRequest true s = some ⟨.cacheOffset 0x4020#16, some .grayscale8⟩ := by
  decide

/-- R123: the framebuffer is the cache from the offset in port 1 on; no read during a run (R121). -/
theorem test_frame_cells :
    let s := { State.reset with ports := [(1, 0xFFFE#16)], cache := [(0xFFFE, 3#16), (0xFFFF, 4#16)] }
    hostReadFrameCell s 0 = some 3#16 ∧ hostReadFrameCell s 1 = some 4#16 ∧ hostReadFrameCell s 2 = none ∧
    hostReadFrameCell { s with running := true } 0 = none := by
  decide

/-! ## Witnesses: the hypotheses of the obligations can be met -/

/-- `StepRunsTheDecodedInstruction` and every `StepEnds`: each instruction is the next one of some state. -/
theorem witness_every_instruction_is_next (n : Mnemonic) :
    (mid (encode (Instr.ofMnemonic n (.indirect 65535#16)))).About (Instr.ofMnemonic n (.indirect 65535#16)) ∧
    (mid (encode (Instr.ofMnemonic n (.immediate 0#16)))).About (Instr.ofMnemonic n (.immediate 0#16)) := by
  cases n <;> exact ⟨⟨rfl, by decide⟩, ⟨rfl, by decide⟩⟩

/-- The other clause of `StepRunsTheDecodedInstruction`. -/
theorem witness_unknown_opcode_is_next : (mid 0x0000003F#32).running = true ∧
    decodeWith (mid 0x0000003F#32).params.opcodeMap ((mid 0x0000003F#32).rom.read (mid 0x0000003F#32).pc) =
      .unknownOpcode 63#7 := by decide
theorem witness_DecodeReadsTheFields : (0xFF000081#32).toNat % 2 ^ 24 = (0x00000081#32).toNat % 2 ^ 24 := by decide
theorem witness_ValidTriplesRoundTrip :
    ((1 < 2 ∧ 65535 < 65536) ∧ 127 < 128) ∧ (0 < 2 ∧ 0 < 65536) ∧ 0 < 128 := by decide
theorem witness_UnmaskedOpcodeLeaksIntoValue : (128 ≤ 128 ∧ 128 < 256) ∧ 128 ≤ 255 ∧ 255 < 256 := by decide

/-- A second admissible numbering, so that `DecodeEncodeEveryInstruction` is not about the default alone. -/
theorem witness_DecodeEncodeEveryInstruction :
    OpcodeMap.admissible (fun n => 127#7 - defaultOpcodeMap n) = true ∧ defaultOpcodeMap.admissible = true ∧
    (Instr.halt (.indirect 65535#16)).wellFormed = true := by decide
theorem witness_EncodeOfDecodedWord :
    decodeWith defaultOpcodeMap 0xFF803296#32 = .instr (.add (.indirect 101#16)) := by decide

/-- Slots 0 and 127 are no mnemonic's. -/
theorem witness_DispatchSlotsOfEveryMap (n : Mnemonic) : defaultOpcodeMap n ≠ 0#7 ∧ defaultOpcodeMap n ≠ 127#7 := by
  cases n <;> decide
theorem witness_CanonicalMemoriesWithEqualReads :
    Memory.wf ([(0, 1#16), (65535, 2#16)] : Memory 16) = true := by decide

/-- A loaded core in a run meets the invariant and steps. -/
theorem witness_EveryStepKeepsTheInvariant : (mid 0x00000022#32).Inv ∧ (after (mid 0x00000022#32)).isSome = true :=
  ⟨by constructor <;> decide, by decide⟩
theorem witness_ResetMeetsTheInvariant : otherParams.wellFormed = true := test_other_params_accepted
theorem witness_UnclaimedOpcodeTraps (n : Mnemonic) : (mid 0x0000003F#32).running = true ∧
    (mid 0x0000003F#32).params.opcodeMap n ≠ ((mid 0x0000003F#32).rom.read (mid 0x0000003F#32).pc).extractLsb' 0 7 := by
  cases n <;> decide

/-- `EveryStepRefreshesPZS`, `EveryStepIsTotal`, `OnlyStopsEndARun` (a step that goes on and one that stops),
`RomIsReadOnlyInARun` (a step of a run and a host move). -/
theorem witness_steps_of_both_kinds :
    (mid 0x00000081#32).running = true ∧ ((after (mid 0x00000081#32)).map fun t => t.running) = some true ∧
    ((after (mid 0x00000022#32)).map fun t => t.running) = some false ∧
    (pending [.run]).running = false ∧ (after (pending [.run])).isSome = true := by
  decide

/-- `EveryStopCauseEndsTheRun`: each of the five causes, and codes of `int` next to the ones left out. -/
theorem witness_EveryStopCauseEndsTheRun :
    StopsWith (mid 0x00000022#32) 0 ∧ StopsWith (mid 0x00004021#32) 128 ∧
    StopsWith (mid 0x0000001D#32) (-2) ∧ StopsWith (mid 0x0080049E#32) (-2) ∧ StopsWith (mid 0x0000003F#32) (-1) ∧
    otherParams.wellFormed = true ∧ (1#16 ≠ 0#16 ∧ 1#16 ≠ 128#16 ∧ ((1#16).toNat : Int) ≠ otherParams.trapExitCode) ∧
    65535#16 ≠ 0#16 ∧ 65535#16 ≠ 128#16 ∧ ((65535#16).toNat : Int) ≠ otherParams.trapExitCode :=
  ⟨.halt (.immediate 0#16) ⟨rfl, by decide⟩, .int (.immediate 128#16) ⟨rfl, by decide⟩,
    .div (s := mid 0x0000001D#32) (.immediate 0#16) ⟨rfl, by decide⟩ rfl,
    .mod (s := mid 0x0080049E#32) (.indirect 9#16) ⟨rfl, by decide⟩ rfl,
    .trap (s := mid 0x0000003F#32) rfl fun n => (witness_UnclaimedOpcodeTraps n).2, by decide⟩

/-- The obligations with the hypothesis `exec i s = .next u`. -/
theorem witness_exec_answers :
    exec (.load (.immediate 7#16)) State.reset = .next { State.reset with acc := 7#16 } := rfl
theorem witness_IgnoredOperandsHaveNoEffect : Mnemonic.pop ∈ busIgnorers ∧ Mnemonic.halt ∈ busIgnorers ∧
    State.reset.params.pushSource = .acc := by decide
theorem witness_PushWritesThenIncrements : State.reset.params.pushSource = .acc ∧
    (other 0#32).params.pushSource = .bus := by decide
theorem witness_PushPushPopPopRestores : ∃ s1 s2 s3 s4 : State,
    exec (.push (.immediate 0#16)) { State.reset with sp := 65535#16, acc := 11#16 } = .next s1 ∧
    exec (.push (.immediate 0#16)) { s1 with acc := 22#16 } = .next s2 ∧
    exec (.pop (.immediate 0#16)) { s2 with acc := 33#16 } = .next s3 ∧
    exec (.pop (.immediate 0#16)) { s3 with acc := 44#16 } = .next s4 :=
  ⟨_, _, _, _, rfl, rfl, rfl, rfl⟩

/-- A core at a `call 10` at address 3 with a `return` at address 10. -/
def callSite : State := { atPc 3#16 0x00000509#32 with rom := [(3, 0x00000509#32), (10, 0x0000000A#32)] }
theorem witness_CallThenReturnComesBack : callSite.About (.call (.immediate 10#16)) ∧
    ((after callSite).map fun t => decide (t.About (.ret (.immediate 0#16)))) = some true ∧
    ((after callSite).bind after).isSome = true :=
  ⟨⟨rfl, by decide⟩, by decide, by decide⟩
theorem witness_JumpcTestsTheMask :
    (State.reset.flags.toWord &&& 0xFFFF#16) = 0#16 ∧ ((⟨false, false, false, false, false, true⟩ : Flags).toWord &&& 32#16) ≠ 0#16 := by
  decide
theorem witness_shift_counts_from_16 : 16 ≤ (busValue (.immediate 16#16) State.reset).toNat ∧
    16 ≤ (busValue (.immediate 65535#16) State.reset).toNat := by decide
theorem witness_RotationsMoveEveryBit : ∃ l r : State,
    exec (.rol (.immediate 20#16)) { State.reset with acc := 0x1234#16 } = .next l ∧
    exec (.ror (.immediate 20#16)) l = .next r :=
  ⟨_, _, rfl, rfl⟩
theorem witness_CompOrdersUnsigned :
    (0#16).toNat < (busValue (.immediate 65535#16) State.reset).toNat ∧
    (65535#16).toNat = (busValue (.immediate 65535#16) State.reset).toNat ∧
    (busValue (.immediate 0#16) State.reset).toNat < (1#16).toNat := by decide
theorem witness_DivAndModByNonzero : busValue (.immediate 65535#16) State.reset ≠ 0#16 := by decide
theorem witness_DivAndModByZeroStop :
    busValue (.immediate 0#16) State.reset = 0#16 ∧ busValue (.indirect 9#16) State.reset = 0#16 := by decide
theorem witness_CarryChainsAddThirtyTwoBits : ∃ lo hi lo' hi' : State,
    exec (.add (.immediate 1#16)) { State.reset with acc := 65535#16 } = .next lo ∧
    exec (.addc (.immediate 0#16)) { lo with acc := 65535#16 } = .next hi ∧
    exec (.sub (.immediate 1#16)) { State.reset with acc := 65535#16 } = .next lo' ∧
    exec (.subc (.immediate 0#16)) { lo' with acc := 65535#16 } = .next hi' :=
  ⟨_, _, _, _, rfl, rfl, rfl, rfl⟩

/-- `InitializeMemoryResets` and the clauses of `HostMovesBetweenRuns`. -/
theorem witness_host_moves :
    ((pending [.initializeMemory]).running = false ∧ (pending [.initializeMemory]).hostMoves = [.initializeMemory]) ∧
    ((pending [.run]).running = false ∧ (pending [.run]).hostMoves = [.run] ∧ (pending [.run]).imageStatus ≠ .failed) ∧
    ({ pending [.run] with imageStatus := .failed }.hostMoves = [.run] ∧
      { pending [.run] with imageStatus := .failed }.running = false) ∧
    ((pending [.writePort 65535 1]).running = false ∧
      (pending [.writePort 65535 1]).hostMoves = [.writePort 65535 1]) ∧
    (other 0#32).imageStatus ≠ .failed ∧ State.reset.running = false ∧ State.reset.hostMoves = [] := by
  decide

/-- `ImportStoresEveryRecord`: no record, one whose opcode byte leaks, and as many records as ROM has cells. -/
theorem witness_ImportStoresEveryRecord (records : List (Byte × Byte × Byte × Byte))
    (h : records = [] ∨ records = [(0x00#8, 0x12#8, 0x34#8, 0x81#8)] ∨
      records = List.replicate 65536 (0x01#8, 0xFF#8, 0xFF#8, 0xFF#8)) :
    let s := pending [.importCode ([0x51#8, 0x54#8, 0x00#8] ++ records.flatMap fun b => [b.1, b.2.1, b.2.2.1, b.2.2.2])]
    s.running = false ∧ s.imageStatus = .blank ∧ s.rom = [] ∧ records.length ≤ 65536 ∧
    s.hostMoves =
      .importCode ([0x51#8, 0x54#8, 0x00#8] ++ records.flatMap fun b => [b.1, b.2.1, b.2.2.1, b.2.2.2]) :: [] :=
  ⟨rfl, rfl, rfl, by
    rcases h with rfl | rfl | rfl
    · decide
    · decide
    · rw [List.length_replicate], rfl⟩

/-- `BadImagesAreLoadErrors`: no NUL, a foreign tag, a truncated record, too many records, and a second import. -/
theorem witness_BadImagesAreLoadErrors :
    (0x00#8 ∉ [0x51#8, 0x54#8]) ∧ [0x51#8, 0x4D#8] ≠ [0x51#8, 0x54#8] ∧ [0#8, 0#8, 5#8].length % 4 ≠ 0 ∧
    65536 < (List.replicate 262148 0#8).length / 4 ∧
    (pending [.importCode [0x51#8, 0x54#8]]).hostMoves = [.importCode [0x51#8, 0x54#8]] ∧
    (pending [.importCode [0x51#8, 0x54#8]]).running = false ∧ State.reset.imageStatus = .blank ∧
    (mid 0#32).imageStatus ≠ .blank ∧ ImageStatus.closed ≠ .blank :=
  ⟨by decide, by decide, by decide, by rw [List.length_replicate]; decide, rfl, rfl, rfl, by decide, by decide⟩
theorem witness_RunEndsAtItsFirstStop :
    (mid 0x00000022#32).running = true ∧ (runUntilStop 1 (mid 0x00000022#32)).isSome = true := by decide
theorem witness_DumpShowsEveryCell : (mid 0#32).running = true ∧ State.reset.running = false := by decide

end Sys2Proof.Tests
end

section
/-! The layout of the flag register `F` (spec/10_state.md). -/

namespace Sys2Proof.Proofs
open Sys2Proof.Machine

/-- Settles O23: the six named places are the cases of `Flags.toWord_getLsbD`, and a place from 6 on is in its last. -/
theorem flagRegisterLayout : Obligations.FlagRegisterLayout := by
  intro f
  refine ⟨f.toWord_getLsbD 0, f.toWord_getLsbD 1, f.toWord_getLsbD 2, f.toWord_getLsbD 3, f.toWord_getLsbD 4,
    f.toWord_getLsbD 5, fun k hk => ?_⟩
  obtain ⟨j, rfl⟩ := Nat.exists_eq_add_of_le' hk
  exact f.toWord_getLsbD (j + 6)

end Sys2Proof.Proofs
end

section
/-! The fields of a word as numbers, and what the encoder's word gives back (spec/30_encoding.md R47 to R50). -/

namespace Sys2Proof.Proofs
open Sys2Proof.Machine

theorem decodeFields_m_toNat (w : RomWord) : (decodeFields w).m.toNat = w.toNat / 2 ^ 23 % 2 := by
  rw [decodeFields, BitVec.getLsbD, Nat.toNat_testBit]

theorem decodeFields_v_toNat (w : RomWord) : (decodeFields w).v.toNat = w.toNat / 2 ^ 7 % 65536 := by
  rw [decodeFields, BitVec.extractLsb'_toNat, Nat.shiftRight_eq_div_pow]

theorem decodeFields_op_toNat (w : RomWord) : (decodeFields w).op.toNat = w.toNat % 128 := by
  rw [decodeFields, BitVec.extractLsb'_toNat, Nat.shiftRight_zero]

/-- No field reaches bits 31..24. -/
theorem decodeFields_congr {w w' : RomWord} (h : w.toNat % 2 ^ 24 = w'.toNat % 2 ^ 24) :
    decodeFields w = decodeFields w' := by
  apply Fields.ext_toNat
  · rw [decodeFields_m_toNat, decodeFields_m_toNat]
    omega
  · rw [decodeFields_v_toNat, decodeFields_v_toNat]
    omega
  · rw [decodeFields_op_toNat, decodeFields_op_toNat]
    omega

/-- Decoding under a numbering looks at the word's fields only. -/
theorem decodeWith_congr {w w' : RomWord} (h : decodeFields w = decodeFields w') (f : OpcodeMap) :
    decodeWith f w = decodeWith f w' := by
  rw [decodeWith, decodeWith, h]

/-- Settles O2: the fields as numbers, none of which depends on the bits above bit 23. -/
theorem decodeReadsTheFields : Obligations.DecodeReadsTheFields :=
  ⟨fun w => ⟨decodeFields_m_toNat w, decodeFields_v_toNat w, decodeFields_op_toNat w⟩,
    fun _ _ h => ⟨decodeFields_congr h, decodeWith_congr (decodeFields_congr h)⟩⟩

/-- A word laid out as three numbers that fit their fields has those numbers as its fields. -/
theorem decodeFields_of_toNat {w : RomWord} {m v op : Nat} (hm : m < 2) (hv : v < 65536) (ho : op < 128)
    (hw : w.toNat = m * 2 ^ 23 + (v * 2 ^ 7 + op)) :
    (decodeFields w).m.toNat = m ∧ (decodeFields w).v.toNat = v ∧ (decodeFields w).op.toNat = op := by
  rw [decodeFields_m_toNat, decodeFields_v_toNat, decodeFields_op_toNat, hw]
  omega

/-- Settles O3: a valid triple's word is laid out as its three numbers. -/
theorem validTriplesRoundTrip : Obligations.ValidTriplesRoundTrip := by
  rintro ⟨m, v, op⟩ hm hv ho
  have hw : (encodeTriple ⟨m, v, op⟩).toNat = m * 2 ^ 23 + (v * 2 ^ 7 + op) := by
    rw [encodeTriple_toNat hm hv (Nat.lt_trans ho (by decide)), value_or_opcode ho]
  exact decodeFields_of_toNat hm hv ho hw

/-- Bit 7 of an opcode byte goes over into bit 0 of the value (R48). -/
theorem value_or_opcodeByte (v : Nat) {op8 : Nat} (hlo : 128 ≤ op8) (hhi : op8 < 256) :
    v * 2 ^ 7 ||| op8 = (v ||| 1) * 2 ^ 7 + (op8 - 128) := by
  have hrest : op8 - 128 < 128 := by omega
  have hbyte : op8 = 1 * 2 ^ 7 ||| (op8 - 128) := by
    rw [value_or_opcode hrest]
    omega
  calc v * 2 ^ 7 ||| op8
      = (v * 2 ^ 7 ||| 1 * 2 ^ 7) ||| (op8 - 128) := by rw [Nat.or_assoc, ← hbyte]
    _ = (v ||| 1) * 2 ^ 7 ||| (op8 - 128) := by
      rw [← Nat.shiftLeft_eq, ← Nat.shiftLeft_eq, ← Nat.shiftLeft_or_distrib, Nat.shiftLeft_eq]
    _ = (v ||| 1) * 2 ^ 7 + (op8 - 128) := value_or_opcode hrest

/-- Settles O4: the word is laid out as `M`, `V` with bit 0 set, and the opcode byte less its bit 7. -/
theorem unmaskedOpcodeLeaksIntoValue : Obligations.UnmaskedOpcodeLeaksIntoValue := by
  refine ⟨fun m v op => by rw [encodeRaw, Nat.shiftLeft_eq, Nat.shiftLeft_eq], fun m v op8 hlo hhi => ?_⟩
  have hm : m.toNat < 2 := m.toNat_lt
  have hv : v.toNat ||| 1 < 65536 := Nat.or_lt_two_pow v.isLt (by decide)
  have hw : (encodeTriple ⟨m.toNat, v.toNat, op8⟩).toNat =
      m.toNat * 2 ^ 23 + ((v.toNat ||| 1) * 2 ^ 7 + (op8 - 128)) := by
    rw [encodeTriple_toNat hm v.isLt hhi, value_or_opcodeByte v.toNat hlo hhi]
  obtain ⟨dm, dv, dop⟩ := decodeFields_of_toNat hm hv (by omega) hw
  exact ⟨Function.LeftInverse.injective Bool.ofNat_toNat dm, BitVec.eq_of_toNat_eq dv, dop⟩

/-- Settles O24: the flag picks the form, and each form's bus value is its own equation. -/
theorem busValueOfBothForms : Obligations.BusValueOfBothForms := by
  intro m v s
  cases m with
  | false => rfl
  | true => rfl

end Sys2Proof.Proofs
end

section
/-! How a step of a run goes on after its handler (spec/40_dispatch_engine.md R65, R68, R69). -/

namespace Sys2Proof.Proofs
open Sys2Proof.Machine

@[simp] theorem finishOutcome_fault (r : Fault) : finishOutcome (.fault r) = .fault r := rfl

@[simp] theorem finishOutcome_refused (r : Refusal) : finishOutcome (.refused r) = .refused r := rfl

/-- Only a handler's next state is carried on, and what follows it is the count, the refresh and the advance. -/
theorem finishOutcome_eq_next_iff {o : Host.Outcome State Fault Refusal} {t : State} :
    finishOutcome o = .next t ↔ ∃ u, o = .next u ∧ t = afterHandler u := by
  cases o with
  | next u => simp [finishStep_eq_afterHandler, eq_comm]
  | fault r => simp
  | refused r => simp

/-- The step of a run is the dispatch of the fetched word and what follows every handler (R65). -/
theorem step_eq_finishOutcome {s : State} (hrun : s.running = true) :
    step s = finishOutcome (dispatchWord (s.rom.read s.pc) s) := by
  rw [step_running hrun, instructionStep_eq]

/-- A step of a run answers exactly what follows the state its handler left. -/
theorem step_eq_next_iff {s t : State} (hrun : s.running = true) :
    step s = .next t ↔ ∃ u, dispatchWord (s.rom.read s.pc) s = .next u ∧ t = afterHandler u := by
  rw [step_eq_finishOutcome hrun, finishOutcome_eq_next_iff]

theorem step_of_about {s : State} {i : Instr} (h : s.About i) : step s = finishOutcome (exec i s) := by
  obtain ⟨hrun, hi⟩ := h
  rw [step_eq_finishOutcome hrun, dispatchWord_instr hi]

/-- Bits 15..6 of `F` are 0 (R19). -/
theorem toWord_ushiftRight_six (f : Flags) : f.toWord >>> 6 = 0#16 := by
  obtain ⟨-, -, -, -, -, -, highClear⟩ := flagRegisterLayout f
  ext k
  simp [← BitVec.getLsbD_eq_getElem, highClear]

/-- Settles O14: a step of a run ends in `afterHandler u` for the handler's `u`, whose flags are these by definition. -/
theorem everyStepRefreshesPZS : Obligations.EveryStepRefreshesPZS := by
  intro s t hrun hstep
  obtain ⟨u, hu, rfl⟩ := (step_eq_next_iff hrun).mp hstep
  exact ⟨rfl, decide_eq_true_iff, rfl, toWord_ushiftRight_six _, u, hu, rfl, rfl, rfl, rfl⟩

/-- Settles O12: dispatch is `exec` of the decoded instruction or the trap, and the rest of the step follows it. -/
theorem stepRunsTheDecodedInstruction : Obligations.StepRunsTheDecodedInstruction := by
  refine ⟨fun s i h => ⟨fun u hu => ?_, fun r hr => ?_, fun r hr => ?_⟩, fun s op hrun hop => ?_⟩
  · rw [step_of_about h, hu, finishOutcome_next, finishStep_eq_afterHandler]
  · rw [step_of_about h, hr, finishOutcome_fault]
  · rw [step_of_about h, hr, finishOutcome_refused]
  · exact (step_eq_next_iff hrun).mpr ⟨_, dispatchWord_unknown hop, rfl⟩

end Sys2Proof.Proofs
end

section
/-! Data transfer (spec/41_data_transfer.md): each handler's state is what its `exec_` law says, the fields it does not
name are the old ones by definition, and the step goes on from it as after every handler. -/

namespace Sys2Proof.Proofs
open Sys2Proof.Machine

/-- Whatever state a handler answers, the step around it ends in the count, the refresh and the advance from there. -/
theorem stepEnds_of_exec {i : Instr} {s u : State} (hu : exec i s = .next u) : StepEnds i s u := by
  intro hnext
  rw [step_of_about hnext, hu, finishOutcome_next, finishStep_eq_afterHandler]

/-- Settles O27: the address is the bus value of the old state, and a write changes the one cell only. -/
theorem storeWritesTheNamedCell : Obligations.StoreWritesTheNamedCell := fun o s =>
  ⟨s.writeCache (busValue o s) s.acc, exec_store o s, rfl, write_oneCellWritten s.cache (busValue o s) s.acc,
    stepEnds_of_exec (exec_store o s)⟩

/-- Settles O29: as `store`, with the address taken from `PR`. -/
theorem storepWritesTheCellAtPr : Obligations.StorepWritesTheCellAtPr := fun o s =>
  ⟨s.writeCache s.pr s.acc, exec_storep o s, rfl, write_oneCellWritten s.cache s.pr s.acc,
    stepEnds_of_exec (exec_storep o s)⟩

/-- Settles O26: the handler is one write of `ACC`. -/
theorem loadCopiesTheBus : Obligations.LoadCopiesTheBus := fun o s =>
  ⟨s.setAcc (busValue o s), exec_load o s, rfl, stepEnds_of_exec (exec_load o s)⟩

/-- Settles O28: the handler is one write of `ACC`, whose old value is the address. -/
theorem loadpReadsTheCellAtAcc : Obligations.LoadpReadsTheCellAtAcc := fun o s =>
  ⟨s.setAcc (s.cache.read s.acc), exec_loadp o s, rfl, stepEnds_of_exec (exec_loadp o s)⟩

/-- Settles O30: each of the two handlers is one write of `PR`. -/
theorem loadprAndTaprWritePr : Obligations.LoadprAndTaprWritePr := fun o s =>
  ⟨s.setPr (busValue o s), s.setPr s.acc, exec_loadpr o s, exec_tapr o s, rfl, rfl,
    stepEnds_of_exec (exec_loadpr o s), stepEnds_of_exec (exec_tapr o s)⟩

/-- Settles O32: `SP` goes down first, the read is at the new `SP`, and no cell is written. -/
theorem popDecrementsThenReads : Obligations.PopDecrementsThenReads := fun o s =>
  ⟨(s.setSp (s.sp - 1)).setAcc (s.valueStack.read (s.sp - 1)), exec_pop o s, rfl, stepEnds_of_exec (exec_pop o s)⟩

end Sys2Proof.Proofs
end

section
/-! Control transfer (spec/42_control_transfer.md): the advance after every handler makes good the one that `PC` was
aimed below its target, and the mask of `jumpc` is six bits against the six flags of `F` (R19). -/

namespace Sys2Proof.Proofs
open Sys2Proof.Machine

/-- The advance lands on the target a handler aimed at (R69). -/
theorem afterHandler_aimPc_pc (s : State) (target : Word) : (afterHandler (s.aimPc target)).pc = target :=
  BitVec.sub_add_cancel target 1#16

theorem selected_iff_and_ne_zero (f : Flags) (mask : Word) : f.selected mask = true ↔ f.toWord &&& mask ≠ 0#16 :=
  bne_iff_ne

theorem selected_iff_exists_bit (f : Flags) (mask : Word) :
    f.selected mask = true ↔ ∃ k, f.toWord.getLsbD k = true ∧ mask.getLsbD k = true := by
  rw [selected_iff_and_ne_zero, Ne, BitVec.zero_iff_eq_false]
  simp

/-- Bit for bit, a mask selects a set flag in one of the places 0 to 5: a place from 6 on holds no flag. -/
theorem selected_eq_flag_and_mask (f : Flags) (mask : Word) :
    f.selected mask = ((f.c && mask.getLsbD 0) || (f.p && mask.getLsbD 1) || (f.z && mask.getLsbD 2) ||
      (f.s && mask.getLsbD 3) || (f.v && mask.getLsbD 4) || (f.u && mask.getLsbD 5)) := by
  obtain ⟨c, p, z, sg, v, u, highClear⟩ := flagRegisterLayout f
  rw [Bool.eq_iff_iff, selected_iff_exists_bit, ← c, ← p, ← z, ← sg, ← v, ← u]
  simp only [Bool.or_eq_true, Bool.and_eq_true]
  constructor
  · rintro ⟨k, hflag, hmask⟩
    match k with
    | 0 | 1 | 2 | 3 | 4 | 5 => simp only [hflag, hmask, and_self, true_or, or_true]
    | k + 6 => exact absurd hflag (by simp [highClear])
  · rintro (((((h | h) | h) | h) | h) | h) <;> exact ⟨_, h⟩

/-- Settles O34: one write of the address stack at the old `ASP`, then `PC` aimed at the bus value of the old state. -/
theorem callPushesItsOwnAddress : Obligations.CallPushesItsOwnAddress := fun o s =>
  ⟨(s.pushAddress s.pc).aimPc (busValue o s), exec_call o s, rfl, write_oneCellWritten s.addressStack s.asp s.pc,
    afterHandler_aimPc_pc (s.pushAddress s.pc) (busValue o s), stepEnds_of_exec (exec_call o s)⟩

/-- Settles O37: the model's test is the six bits one by one, and each of its two answers is one of the two clauses. -/
theorem jumpcTestsTheMask : Obligations.JumpcTestsTheMask := by
  intro o s
  refine ⟨_, exec_jumpc o s, stepEnds_of_exec (exec_jumpc o s), ?_⟩
  intro b taken
  have htaken : taken = s.flags.selected b := (selected_eq_flag_and_mask s.flags b).symm
  rw [htaken]
  refine ⟨selected_iff_and_ne_zero s.flags b, fun hjump => ?_, fun hstay => ?_⟩
  · rw [if_pos hjump]
    exact ⟨rfl, afterHandler_aimPc_pc s s.pr⟩
  · rw [if_neg (Bool.eq_false_iff.mp hstay)]
    exact ⟨rfl, rfl⟩

/-- Settles O35: `ASP` goes down first, the cell read there is written to `PC` as it is, and the advance adds one. -/
theorem returnGoesPastTheCallSite : Obligations.ReturnGoesPastTheCallSite := fun o s =>
  ⟨(s.setAsp (s.asp - 1)).setPc (s.addressStack.read (s.asp - 1)), exec_ret o s, rfl, rfl,
    stepEnds_of_exec (exec_ret o s)⟩

/-- Settles O36: the handler only aims `PC` at the bus value. -/
theorem jumpLandsOnTheBus : Obligations.JumpLandsOnTheBus := fun o s =>
  ⟨s.aimPc (busValue o s), exec_jump o s, rfl, afterHandler_aimPc_pc s (busValue o s),
    stepEnds_of_exec (exec_jump o s)⟩

end Sys2Proof.Proofs
end

section
/-! Flags, logic and the comparison (spec/43_flags_logic_shift.md): `clf`, `and`, `or`, `xor` and `comp` are one write of
`F` or of `ACC` each, and each of the three results of `comp` is one row of the table the refresh makes of it. -/

namespace Sys2Proof.Proofs
open Sys2Proof.Machine

/-- Settles O39: the handler writes the cleared `F`, whose three flags the refresh does not write stay clear. -/
theorem clfClearsThenRefreshes : Obligations.ClfClearsThenRefreshes := fun o s =>
  ⟨s.setFlags Flags.zero, exec_clf o s, rfl, rfl, rfl, stepEnds_of_exec (exec_clf o s)⟩

/-- Settles O40: each handler is one write of `ACC` with the operation on whole words, which acts bit by bit. -/
theorem logicActsBitByBit : Obligations.LogicActsBitByBit := fun o s =>
  ⟨s.setAcc (s.acc &&& busValue o s), s.setAcc (s.acc ||| busValue o s), s.setAcc (s.acc ^^^ busValue o s),
    exec_and o s, exec_or o s, exec_xor o s, rfl, rfl, rfl,
    fun _ => BitVec.getLsbD_and, fun _ => BitVec.getLsbD_or, fun _ => BitVec.getLsbD_xor,
    stepEnds_of_exec (exec_and o s), stepEnds_of_exec (exec_or o s), stepEnds_of_exec (exec_xor o s)⟩

theorem compareWords_of_lt {a b : Word} (h : a.toNat < b.toNat) : compareWords a b = 65535#16 :=
  if_pos h

theorem compareWords_self (a : Word) : compareWords a a = 0#16 := by
  rw [compareWords, if_neg (Nat.lt_irrefl _), if_pos rfl]

theorem compareWords_of_gt {a b : Word} (h : b.toNat < a.toNat) : compareWords a b = 1#16 := by
  have hne : a ≠ b := fun hab => absurd h (by simp [hab])
  rw [compareWords, if_neg (Nat.lt_asymm h), if_neg hne]

/-- After a handler that wrote `ACC` only, P, Z and S tell of the word written and C, V and U are the old ones. -/
theorem afterHandler_setAcc_flags (s : State) (v : Word) : (afterHandler (s.setAcc v)).flags =
    { s.flags with p := xorFold v, z := decide (v = 0#16), s := v.getLsbD 15 } := rfl

/-- Settles O44: in each of the three orders `comp` writes a known word, and the refresh reads that word. -/
theorem compOrdersUnsigned : Obligations.CompOrdersUnsigned := by
  intro o s
  refine ⟨s.setAcc (compareWords s.acc (busValue o s)), exec_comp o s, rfl, fun hlt => ?less, fun heq => ?equal,
    fun hgt => ?greater, stepEnds_of_exec (exec_comp o s)⟩
  case less =>
    rw [compareWords_of_lt hlt, afterHandler_setAcc_flags]
    exact ⟨rfl, rfl⟩
  case equal =>
    rw [← BitVec.eq_of_toNat_eq heq, compareWords_self, afterHandler_setAcc_flags]
    exact ⟨rfl, rfl⟩
  case greater =>
    rw [compareWords_of_gt hgt, afterHandler_setAcc_flags]
    exact ⟨rfl, rfl⟩

end Sys2Proof.Proofs
end

section
/-! Ports and system (spec/45_port_system.md): `portw` is one write of a port, and `int` and `halt` are one stop each, which
writes `running` and the exit code and leaves `PC` to the advance (R69). -/

namespace Sys2Proof.Proofs
open Sys2Proof.Machine

/-- Settles O52: the port is the bus value of the old state, and a write changes the one port only. -/
theorem portwWritesTheNamedPort : Obligations.PortwWritesTheNamedPort := fun o s =>
  ⟨s.writePort (busValue o s) s.acc, exec_portw o s, rfl, write_oneCellWritten s.ports (busValue o s) s.acc,
    stepEnds_of_exec (exec_portw o s)⟩

/-- A handler that stops the run does not hold back the advance that follows it (R69, R109, R110). -/
theorem afterHandler_stop_pc (s : State) (code : Int) : (afterHandler (s.stop code)).pc = s.pc + 1 := rfl

/-- Settles O54: each of the two handlers is one stop, with the bus value of the old state as the code or with 0. -/
theorem intAndHaltStop : Obligations.IntAndHaltStop := fun o s =>
  ⟨s.stop ((busValue o s).toNat : Int), s.stop 0, exec_int o s, exec_halt o s, rfl, rfl,
    afterHandler_stop_pc s _, afterHandler_stop_pc s 0, stepEnds_of_exec (exec_int o s), stepEnds_of_exec (exec_halt o s)⟩

end Sys2Proof.Proofs
end

section
/-! The unknown-opcode exception (spec/60_exceptions.md R113): an opcode that is no mnemonic's number has an empty dispatch
slot, and the trap handler that answers for an empty slot is one stop (R63, R112). -/

namespace Sys2Proof.Proofs
open Sys2Proof.Machine

theorem dispatchSlot_eq_none {f : OpcodeMap} {op : Opcode} (h : ∀ n, f n ≠ op) : dispatchSlot f op = none := by
  cases hslot : dispatchSlot f op with
  | none => rfl
  | some n => exact absurd (dispatchSlot_some hslot) (h n)

theorem decodeWith_of_unclaimed {f : OpcodeMap} {w : RomWord} (h : ∀ n, f n ≠ (decodeFields w).op) :
    decodeWith f w = .unknownOpcode (decodeFields w).op := by
  rw [decodeWith, dispatchSlot_eq_none h]

/-- The trap handler stops the run with the trap's code and writes nothing else. -/
theorem takeException_unknownOpcode (s : State) :
    s.takeException .unknownOpcode = { s with running := false, exitCode := s.params.trapExitCode } := rfl

/-- Settles O13: the fetched word decodes to no instruction, so the step is the trap handler's. -/
theorem unclaimedOpcodeTraps : Obligations.UnclaimedOpcodeTraps := by
  intro s hrun hunclaimed
  obtain ⟨-, stepOfUnknown⟩ := stepRunsTheDecodedInstruction
  rw [stepOfUnknown s _ hrun (decodeWith_of_unclaimed hunclaimed), takeException_unknownOpcode]

end Sys2Proof.Proofs
end

section
/-! The opcode numbering and the round trip between instructions and words (spec/30_encoding.md R46 to R54): what an
admissible numbering gives a slot, and what a decoded instruction says about the word it was read from. -/

namespace Sys2Proof.Proofs
open Sys2Proof.Machine

/-- No two mnemonics share a number (R52). -/
theorem injective_of_admissible {f : OpcodeMap} (h : f.admissible = true) : Function.Injective f := by
  obtain ⟨hnodup, -⟩ := Bool.and_eq_true_iff.mp h
  exact fun n n' heq => List.inj_on_of_nodup_map (of_decide_eq_true hnodup) n.mem_all n'.mem_all heq

/-- The slot search stops at a mnemonic with the slot's number, and an admissible numbering has only one (R63). -/
theorem dispatchSlot_own_number {f : OpcodeMap} (h : f.admissible = true) (n : Mnemonic) :
    dispatchSlot f (f n) = some n := by
  cases hslot : dispatchSlot f (f n) with
  | none => exact absurd (List.find?_eq_none.mp hslot n n.mem_all) (by simp)
  | some n' => rw [injective_of_admissible h (dispatchSlot_some hslot)]

theorem defaultOpcodeMap_admissible : defaultOpcodeMap.admissible = true := by decide

/-- Settles O7: a number finds its own mnemonic, an unclaimed opcode none, and the default's slots are counted. -/
theorem dispatchSlotsOfEveryMap : Obligations.DispatchSlotsOfEveryMap :=
  ⟨fun _ h => ⟨dispatchSlot_own_number h, fun _ => dispatchSlot_eq_none⟩, defaultOpcodeMap_admissible, by decide⟩

/-- The fields of an instruction's word are its operand's two and its opcode number. -/
theorem decodeFields_encodeWith (f : OpcodeMap) (i : Instr) :
    decodeFields (encodeWith f i) = ⟨i.operand.flag, i.operand.value, f i.mnemonic⟩ := by
  obtain ⟨hm, hv, hop⟩ := validTriplesRoundTrip (i.operand.triple (f i.mnemonic).toNat)
    i.operand.flag.toNat_lt i.operand.value.isLt (f i.mnemonic).isLt
  exact Fields.ext_toNat hm hv hop

/-- Settles O5: the word's fields find the mnemonic's own slot, and mnemonic and operand are all of an instruction. -/
theorem decodeEncodeEveryInstruction : Obligations.DecodeEncodeEveryInstruction := by
  intro f hf i _
  simp [decodeWith, decodeFields_encodeWith, dispatchSlot_own_number hf, Laws.ofMnemonic_mnemonic_operand]

/-- A word that decodes to an instruction holds the instruction's two operand fields and its opcode number. -/
theorem decodeFields_of_decodeWith {f : OpcodeMap} {w : RomWord} {i : Instr} (h : decodeWith f w = .instr i) :
    decodeFields w = ⟨i.operand.flag, i.operand.value, f i.mnemonic⟩ := by
  cases hslot : dispatchSlot f (decodeFields w).op with
  | none => simp [decodeWith, hslot] at h
  | some n =>
    simp only [decodeWith, hslot, Decoded.instr.injEq] at h
    simp [← h, dispatchSlot_some hslot]

/-- An instruction's word is its three numbers, laid out one after the other. -/
theorem encodeWith_toNat (f : OpcodeMap) (i : Instr) : (encodeWith f i).toNat =
    i.operand.flag.toNat * 2 ^ 23 + (i.operand.value.toNat * 2 ^ 7 + (f i.mnemonic).toNat) := by
  have hop := (f i.mnemonic).isLt
  rw [encodeWith, Operand.triple, encodeTriple_toNat i.operand.flag.toNat_lt i.operand.value.isLt (by omega),
    value_or_opcode hop]

/-- Settles O6: the three fields read from the word are bits 23 to 0 of it, and those are what is encoded again. -/
theorem encodeOfDecodedWord : Obligations.EncodeOfDecodedWord := by
  intro f w i h
  have hfields := decodeFields_of_decodeWith h
  have hm := decodeFields_m_toNat w
  have hv := decodeFields_v_toNat w
  have hop := decodeFields_op_toNat w
  rw [hfields] at hm hv hop
  have hlow : (w &&& 0x00FFFFFF#32).toNat = w.toNat % 2 ^ 24 := by
    rw [BitVec.toNat_and]
    exact Nat.and_two_pow_sub_one_eq_mod w.toNat 24
  apply BitVec.eq_of_toNat_eq
  rw [encodeWith_toNat, hlow]
  dsimp only at hm hv hop
  omega

/-- Settles O1: each of the eight words is decoded. -/
theorem sampleWordsDecode : Obligations.SampleWordsDecode := by
  unfold Obligations.SampleWordsDecode
  decide

end Sys2Proof.Proofs
end

section
/-! What a handler can do (spec/10_state.md R12, R21, spec/20_memory.md R28): one inversion of `exec` for all instructions,
and from it what each handler leaves unchanged. -/

namespace Sys2Proof.Proofs
open Sys2Proof.Machine

/-- The mnemonics whose handler is one write of `ACC`; `div` and `mod` are among them unless they stop the run. -/
def plainAccWriters : List Mnemonic :=
  [.load, .loadp, .and, .or, .xor, .rol, .ror, .comp, .div, .mod, .portr]

/-- What the handler of a mnemonic with an operand can make of the state `s`. -/
inductive HandlerEffect (s : State) : Mnemonic → Operand → State → Prop where
  | writeAcc {n o} (hn : n ∈ plainAccWriters) (v : Word) : HandlerEffect s n o (s.setAcc v)
  | writePr {n o} (hn : n ∈ prWriters) (v : Word) : HandlerEffect s n o (s.setPr v)
  | writeCache {n o} (hn : n ∈ cacheWriters) (a v : Word) : HandlerEffect s n o (s.writeCache a v)
  | writePort {o} (a v : Word) : HandlerEffect s .portw o (s.writePort a v)
  | push {o} (v : Word) : HandlerEffect s .push o (s.pushValue v)
  | pop {o} (a v : Word) : HandlerEffect s .pop o ((s.setSp a).setAcc v)
  | call {o} (v a : Word) : HandlerEffect s .call o ((s.pushAddress v).aimPc a)
  | ret {o} (a v : Word) : HandlerEffect s .ret o ((s.setAsp a).setPc v)
  | jump {n o} (hn : n ∈ [.jump, .jumpc]) (a : Word) : HandlerEffect s n o (s.aimPc a)
  | stay {o} : HandlerEffect s .jumpc o s
  | clearFlags {o} : HandlerEffect s .clf o (s.setFlags Flags.zero)
  | shiftLeft {o} (b : Bool) (v : Word) : HandlerEffect s .lsl o ((s.setOverflow b).setAcc v)
  | shiftRight {o} (b : Bool) (v : Word) : HandlerEffect s .lsr o ((s.setUnderflow b).setAcc v)
  | putSum {n o} (hn : n ∈ [.add, .addc, .inc]) (r : Int) : HandlerEffect s n o (s.putSum r)
  | putDifference {n o} (hn : n ∈ [.sub, .subc, .dec]) (r : Int) : HandlerEffect s n o (s.putDifference r)
  | putProduct {o} (r : Int) : HandlerEffect s .mul o (s.putProduct r)
  | halt {o} : HandlerEffect s .halt o (s.stop 0)
  | int {o} : HandlerEffect s .int o (s.stop ((busValue o s).toNat : Int))
  | divideByZero {n o} (hn : n ∈ [.div, .mod]) (h0 : busValue o s = 0#16) :
      HandlerEffect s n o (s.takeException .divideByZero)

/-- Every handler answers a next state, and that state is one of these. -/
theorem exists_exec_ofMnemonic (n : Mnemonic) (o : Operand) (s : State) :
    ∃ u, exec (Instr.ofMnemonic n o) s = .next u ∧ HandlerEffect s n o u := by
  cases n with
  | load => exact ⟨_, exec_load o s, .writeAcc (by decide) _⟩
  | store => exact ⟨_, exec_store o s, .writeCache (by decide) _ _⟩
  | loadp => exact ⟨_, exec_loadp o s, .writeAcc (by decide) _⟩
  | loadpr => exact ⟨_, exec_loadpr o s, .writePr (by decide) _⟩
  | storep => exact ⟨_, exec_storep o s, .writeCache (by decide) _ _⟩
  | tapr => exact ⟨_, exec_tapr o s, .writePr (by decide) _⟩
  | push => exact ⟨_, exec_push o s, .push _⟩
  | pop => exact ⟨_, exec_pop o s, .pop _ _⟩
  | call => exact ⟨_, exec_call o s, .call _ _⟩
  | ret => exact ⟨_, exec_ret o s, .ret _ _⟩
  | jump => exact ⟨_, exec_jump o s, .jump (by decide) _⟩
  | jumpc =>
    refine ⟨_, exec_jumpc o s, ?_⟩
    split
    · exact .jump (by decide) _
    · exact .stay
  | clf => exact ⟨_, exec_clf o s, .clearFlags⟩
  | and => exact ⟨_, exec_and o s, .writeAcc (by decide) _⟩
  | or => exact ⟨_, exec_or o s, .writeAcc (by decide) _⟩
  | xor => exact ⟨_, exec_xor o s, .writeAcc (by decide) _⟩
  | lsl => exact ⟨_, exec_lsl o s, .shiftLeft _ _⟩
  | lsr => exact ⟨_, exec_lsr o s, .shiftRight _ _⟩
  | rol => exact ⟨_, exec_rol o s, .writeAcc (by decide) _⟩
  | ror => exact ⟨_, exec_ror o s, .writeAcc (by decide) _⟩
  | comp => exact ⟨_, exec_comp o s, .writeAcc (by decide) _⟩
  | add => exact ⟨_, exec_add o s, .putSum (by decide) _⟩
  | sub => exact ⟨_, exec_sub o s, .putDifference (by decide) _⟩
  | addc => exact ⟨_, exec_addc o s, .putSum (by decide) _⟩
  | subc => exact ⟨_, exec_subc o s, .putDifference (by decide) _⟩
  | inc => exact ⟨_, exec_inc o s, .putSum (by decide) _⟩
  | dec => exact ⟨_, exec_dec o s, .putDifference (by decide) _⟩
  | mul => exact ⟨_, exec_mul o s, .putProduct _⟩
  | div =>
    refine ⟨_, exec_div o s, ?_⟩
    split
    · exact .divideByZero (by decide) ‹_›
    · exact .writeAcc (by decide) _
  | mod =>
    refine ⟨_, exec_mod o s, ?_⟩
    split
    · exact .divideByZero (by decide) ‹_›
    · exact .writeAcc (by decide) _
  | portw => exact ⟨_, exec_portw o s, .writePort _ _⟩
  | portr => exact ⟨_, exec_portr o s, .writeAcc (by decide) _⟩
  | int => exact ⟨_, exec_int o s, .int⟩
  | halt => exact ⟨_, exec_halt o s, .halt⟩

theorem exists_exec_eq_next (i : Instr) (s : State) :
    ∃ u, exec i s = .next u ∧ HandlerEffect s i.mnemonic i.operand u := by
  have h := exists_exec_ofMnemonic i.mnemonic i.operand s
  rwa [Laws.ofMnemonic_mnemonic_operand] at h

/-- The inversion of `exec`: what it answers is one of the handler effects of its mnemonic and operand. -/
theorem effect_of_exec {i : Instr} {s u : State} (h : exec i s = .next u) :
    HandlerEffect s i.mnemonic i.operand u := by
  obtain ⟨u', hu', heffect⟩ := exists_exec_eq_next i s
  obtain rfl : u = u' := Host.Outcome.next.inj (h.symm.trans hu')
  exact heffect

namespace HandlerEffect

variable {s u : State} {n : Mnemonic} {o : Operand}

theorem rom_eq (h : HandlerEffect s n o u) : u.rom = s.rom := by cases h <;> rfl

theorem imageStatus_eq (h : HandlerEffect s n o u) : u.imageStatus = s.imageStatus := by cases h <;> rfl

theorem hostMoves_eq (h : HandlerEffect s n o u) : u.hostMoves = s.hostMoves := by cases h <;> rfl

theorem params_eq (h : HandlerEffect s n o u) : u.params = s.params := by cases h <;> rfl

theorem instructionsExecuted_eq (h : HandlerEffect s n o u) : u.instructionsExecuted = s.instructionsExecuted := by
  cases h <;> rfl

theorem cache_eq (h : HandlerEffect s n o u) (hn : n ∉ cacheWriters) : u.cache = s.cache := by
  cases h with
  | writeCache hw => exact absurd hw hn
  | _ => rfl

theorem valueStack_eq (h : HandlerEffect s n o u) (hn : n ≠ .push) : u.valueStack = s.valueStack := by
  cases h with
  | push => exact absurd rfl hn
  | _ => rfl

theorem addressStack_eq (h : HandlerEffect s n o u) (hn : n ≠ .call) : u.addressStack = s.addressStack := by
  cases h with
  | call => exact absurd rfl hn
  | _ => rfl

theorem ports_eq (h : HandlerEffect s n o u) (hn : n ≠ .portw) : u.ports = s.ports := by
  cases h with
  | writePort => exact absurd rfl hn
  | _ => rfl

theorem acc_eq (h : HandlerEffect s n o u) (hn : n ∉ accWriters) : u.acc = s.acc := by
  have hsub : ∀ l : List Mnemonic, l ⊆ accWriters → n ∉ l := fun l hl hmem => hn (hl hmem)
  cases h with
  | writeAcc hw => exact absurd hw (hsub _ (by decide))
  | putSum hw => exact absurd hw (hsub _ (by decide))
  | putDifference hw => exact absurd hw (hsub _ (by decide))
  | pop | shiftLeft | shiftRight | putProduct => exact absurd (by decide) hn
  | _ => rfl

theorem pr_eq (h : HandlerEffect s n o u) (hn : n ∉ prWriters) : u.pr = s.pr := by
  cases h with
  | writePr hw => exact absurd hw hn
  | _ => rfl

theorem pc_eq (h : HandlerEffect s n o u) (hn : n ∉ pcWriters) : u.pc = s.pc := by
  have hsub : [.jump, .jumpc] ⊆ pcWriters := by decide
  cases h with
  | jump hw => exact absurd (hsub hw) hn
  | call | ret => exact absurd (by decide) hn
  | _ => rfl

theorem sp_eq (h : HandlerEffect s n o u) (hn : n ∉ spWriters) : u.sp = s.sp := by
  cases h with
  | push | pop => exact absurd (by decide) hn
  | _ => rfl

theorem asp_eq (h : HandlerEffect s n o u) (hn : n ∉ aspWriters) : u.asp = s.asp := by
  cases h with
  | call | ret => exact absurd (by decide) hn
  | _ => rfl

theorem carry_eq (h : HandlerEffect s n o u) (hn : n ∉ carryWriters) : u.flags.c = s.flags.c := by
  have hsum : [.add, .addc, .inc] ⊆ carryWriters := by decide
  have hdifference : [.sub, .subc, .dec] ⊆ carryWriters := by decide
  cases h with
  | putSum hw => exact absurd (hsum hw) hn
  | putDifference hw => exact absurd (hdifference hw) hn
  | clearFlags => exact absurd (by decide) hn
  | _ => rfl

theorem overflow_eq (h : HandlerEffect s n o u) (hn : n ∉ overflowWriters) : u.flags.v = s.flags.v := by
  cases h with
  | clearFlags | shiftLeft | putProduct => exact absurd (by decide) hn
  | _ => rfl

theorem underflow_eq (h : HandlerEffect s n o u) (hn : n ∉ underflowWriters) : u.flags.u = s.flags.u := by
  cases h with
  | clearFlags | shiftRight => exact absurd (by decide) hn
  | _ => rfl

theorem refreshed_eq (h : HandlerEffect s n o u) (hn : n ≠ .clf) :
    u.flags.p = s.flags.p ∧ u.flags.z = s.flags.z ∧ u.flags.s = s.flags.s := by
  cases h with
  | clearFlags => exact absurd rfl hn
  | _ => exact ⟨rfl, rfl, rfl⟩

/-- A handler writes a memory only by the cell writes that keep its canonical form. -/
theorem memories_wf (h : HandlerEffect s n o u) : (s.cache.wf = true → u.cache.wf = true) ∧
    (s.valueStack.wf = true → u.valueStack.wf = true) ∧ (s.addressStack.wf = true → u.addressStack.wf = true) ∧
    (s.ports.wf = true → u.ports.wf = true) := by
  cases h with
  | writeCache _ a v => exact ⟨Memory.write_wf a v, id, id, id⟩
  | push v => exact ⟨id, Memory.write_wf s.sp v, id, id⟩
  | call v => exact ⟨id, id, Memory.write_wf s.asp v, id⟩
  | writePort a v => exact ⟨id, id, id, Memory.write_wf a v⟩
  | _ => exact ⟨id, id, id, id⟩

end HandlerEffect

/-- Settles O20: each memory has one effect that writes it, of its own writers. -/
theorem cellsWrittenOnlyByTheirInstructions : Obligations.CellsWrittenOnlyByTheirInstructions := by
  intro i s u h
  have heffect := effect_of_exec h
  exact ⟨heffect.cache_eq, heffect.valueStack_eq, heffect.addressStack_eq, heffect.ports_eq, heffect.imageStatus_eq,
    heffect.hostMoves_eq, heffect.params_eq⟩

/-- Settles O21: every effect that writes a register is of one of its writers. -/
theorem registersWrittenOnlyByTheirInstructions : Obligations.RegistersWrittenOnlyByTheirInstructions := by
  intro i s u h
  have heffect := effect_of_exec h
  exact ⟨heffect.acc_eq, heffect.pr_eq, heffect.pc_eq, heffect.sp_eq, heffect.asp_eq⟩

/-- Settles O22: every effect that writes a flag is of one of its writers. -/
theorem flagsWrittenOnlyByTheirInstructions : Obligations.FlagsWrittenOnlyByTheirInstructions := by
  intro i s u h
  have heffect := effect_of_exec h
  exact ⟨heffect.carry_eq, heffect.overflow_eq, heffect.underflow_eq, heffect.refreshed_eq⟩

end Sys2Proof.Proofs
end

section
/-! What a step can do, of the core or of the host (spec/40_dispatch_engine.md R65, R73, spec/60_exceptions.md R121), and
what every step of a run leaves as it is. -/

namespace Sys2Proof.Proofs
open Sys2Proof.Machine

@[simp] theorem afterHandler_rom (u : State) : (afterHandler u).rom = u.rom := rfl
@[simp] theorem afterHandler_params (u : State) : (afterHandler u).params = u.params := rfl
@[simp] theorem afterHandler_running (u : State) : (afterHandler u).running = u.running := rfl
@[simp] theorem afterHandler_exitCode (u : State) : (afterHandler u).exitCode = u.exitCode := rfl
@[simp] theorem afterHandler_instructionsExecuted (u : State) :
    (afterHandler u).instructionsExecuted = u.instructionsExecuted + 1 := rfl

/-- The effect of the dispatched handler: the decoded instruction's, or the trap handler's. -/
theorem dispatchWord_cases {w : RomWord} {s u : State} (h : dispatchWord w s = .next u) :
    (∃ n o, decodeWith s.params.opcodeMap w = .instr (Instr.ofMnemonic n o) ∧ HandlerEffect s n o u) ∨
    (∃ op, decodeWith s.params.opcodeMap w = .unknownOpcode op) ∧ u = s.takeException .unknownOpcode := by
  cases hdecode : decodeWith s.params.opcodeMap w with
  | instr i =>
    rw [dispatchWord_instr hdecode] at h
    exact .inl ⟨i.mnemonic, i.operand, by rw [Laws.ofMnemonic_mnemonic_operand], effect_of_exec h⟩
  | unknownOpcode op =>
    rw [dispatchWord_unknown hdecode] at h
    exact .inr ⟨⟨op, rfl⟩, (Host.Outcome.next.inj h).symm⟩

/-- The step of a stopped core: it waits, or makes the first of the pending moves. -/
theorem step_stopped_cases {s t : State} (hstopped : s.running = false) (h : step s = .next t) :
    s.hostMoves = [] ∧ t = s ∨
    ∃ m rest, s.hostMoves = m :: rest ∧ t = State.hostMove { s with hostMoves := rest } m := by
  rw [step_stopped hstopped] at h
  cases hmoves : s.hostMoves with
  | nil =>
    rw [hostStep_nil hmoves] at h
    exact .inl ⟨rfl, (Host.Outcome.next.inj h).symm⟩
  | cons m rest =>
    rw [hostStep_cons hmoves] at h
    exact .inr ⟨m, rest, rfl, (Host.Outcome.next.inj h).symm⟩

theorem step_of_move {s : State} {m : HostMove} {rest : List HostMove} (hstopped : s.running = false)
    (hmoves : s.hostMoves = m :: rest) : step s = .next (State.hostMove { s with hostMoves := rest } m) := by
  rw [step_stopped hstopped, hostStep_cons hmoves]

/-! ## Totality -/

theorem exists_dispatchWord_eq_next (w : RomWord) (s : State) : ∃ u, dispatchWord w s = .next u := by
  cases hdecode : decodeWith s.params.opcodeMap w with
  | instr i =>
    obtain ⟨u, hu, -⟩ := exists_exec_eq_next i s
    exact ⟨u, by rw [dispatchWord_instr hdecode, hu]⟩
  | unknownOpcode op => exact ⟨_, dispatchWord_unknown hdecode⟩

theorem exists_step_eq_next (s : State) : ∃ t, step s = .next t := by
  cases hrun : s.running with
  | true =>
    obtain ⟨u, hu⟩ := exists_dispatchWord_eq_next (s.rom.read s.pc) s
    exact ⟨afterHandler u, (step_eq_next_iff hrun).mpr ⟨u, hu, rfl⟩⟩
  | false =>
    rw [step_stopped hrun]
    cases hmoves : s.hostMoves with
    | nil => exact ⟨_, hostStep_nil hmoves⟩
    | cons m rest => exact ⟨_, hostStep_cons hmoves⟩

/-- No handler touches ROM, the parameters or the count, the trap handler included. -/
theorem dispatchWord_frame {w : RomWord} {s u : State} (h : dispatchWord w s = .next u) :
    u.rom = s.rom ∧ u.params = s.params ∧ u.instructionsExecuted = s.instructionsExecuted := by
  rcases dispatchWord_cases h with ⟨n, o, -, heffect⟩ | ⟨-, rfl⟩
  · exact ⟨heffect.rom_eq, heffect.params_eq, heffect.instructionsExecuted_eq⟩
  · exact ⟨rfl, rfl, rfl⟩

theorem step_running_instructionsExecuted {s t : State} (hrun : s.running = true) (h : step s = .next t) :
    t.instructionsExecuted = s.instructionsExecuted + 1 := by
  obtain ⟨u, hu, rfl⟩ := (step_eq_next_iff hrun).mp h
  obtain ⟨-, -, hcount⟩ := dispatchWord_frame hu
  rw [afterHandler_instructionsExecuted, hcount]

/-- Settles O15: every handler answers a next state, so every step does, and the one count of a step is the engine's. -/
theorem everyStepIsTotal : Obligations.EveryStepIsTotal := by
  refine ⟨fun i s => ?_, exists_step_eq_next, fun s t => step_running_instructionsExecuted⟩
  obtain ⟨u, hu, -⟩ := exists_exec_eq_next i s
  exact ⟨u, hu⟩

/-! ## What a step leaves as it is -/

theorem step_running_rom {s t : State} (hrun : s.running = true) (h : step s = .next t) : t.rom = s.rom := by
  obtain ⟨u, hu, rfl⟩ := (step_eq_next_iff hrun).mp h
  obtain ⟨hrom, -, -⟩ := dispatchWord_frame hu
  rw [afterHandler_rom, hrom]

theorem step_params {s t : State} (h : step s = .next t) : t.params = s.params := by
  cases hrun : s.running with
  | true =>
    obtain ⟨u, hu, rfl⟩ := (step_eq_next_iff hrun).mp h
    obtain ⟨-, hparams, -⟩ := dispatchWord_frame hu
    rw [afterHandler_params, hparams]
  | false =>
    rcases step_stopped_cases hrun h with ⟨-, rfl⟩ | ⟨m, rest, -, rfl⟩
    · rfl
    · exact State.hostMove_params _ m

end Sys2Proof.Proofs
end

section
/-! The invariant that holds after reset and that every step keeps (spec/20_memory.md, spec/30_encoding.md R61,
spec/70_reset_and_hazards.md R132). -/

namespace Sys2Proof.Proofs
open Sys2Proof.Machine

theorem inv_resetWith {p : Config.Params} (h : p.wellFormed = true) : (State.resetWith p).Inv where
  params_wf := h
  rom_wf := Memory.nil_wf
  cache_wf := Memory.nil_wf
  valueStack_wf := Memory.nil_wf
  addressStack_wf := Memory.nil_wf
  ports_wf := Memory.nil_wf
  rom_clear := rfl
  rom_unloaded _ := rfl
  blank_stopped _ := rfl
  failed_stopped _ := rfl

theorem defaultParams_wellFormed : defaultParams.wellFormed = true :=
  (Config.Params.wellFormed_iff _).mpr
    ⟨by rw [defaultParams_opcodeMap]; exact defaultOpcodeMap_admissible, by decide, by decide⟩

/-- Settles O10: every memory is empty after reset and the import's turn is still to come. -/
theorem resetMeetsTheInvariant : Obligations.ResetMeetsTheInvariant :=
  ⟨inv_resetWith defaultParams_wellFormed, fun _ => inv_resetWith⟩

/-- Settles O9: the reset state names every one of these values. -/
theorem resetLeavesZeros : Obligations.ResetLeavesZeros :=
  ⟨rfl, fun _ => ⟨rfl, rfl, rfl, rfl, rfl, rfl, rfl, fun _ => ⟨rfl, rfl, rfl, rfl, rfl⟩, rfl, rfl, rfl⟩⟩

/-- A step of a run touches of the invariant's fields only the data memories, which stay canonical, and `running`, which no
invariant state has on before the import's turn has passed or after a failed import. -/
theorem inv_of_running {s t : State} (hs : s.Inv) (hrun : s.running = true) (hparams : t.params = s.params)
    (hrom : t.rom = s.rom) (hstatus : t.imageStatus = s.imageStatus) (hcache : t.cache.wf = true)
    (hvalues : t.valueStack.wf = true) (haddresses : t.addressStack.wf = true) (hports : t.ports.wf = true) :
    t.Inv where
  params_wf := hparams ▸ hs.params_wf
  rom_wf := hrom ▸ hs.rom_wf
  cache_wf := hcache
  valueStack_wf := hvalues
  addressStack_wf := haddresses
  ports_wf := hports
  rom_clear := hrom ▸ hs.rom_clear
  rom_unloaded h := hrom ▸ hs.rom_unloaded (hstatus ▸ h)
  blank_stopped h := absurd hrun (by simp [hs.blank_stopped (hstatus ▸ h)])
  failed_stopped h := absurd hrun (by simp [hs.failed_stopped (hstatus ▸ h)])

theorem step_running_inv {s t : State} (hs : s.Inv) (hrun : s.running = true) (h : step s = .next t) : t.Inv := by
  obtain ⟨u, hu, rfl⟩ := (step_eq_next_iff hrun).mp h
  rcases dispatchWord_cases hu with ⟨n, o, -, heffect⟩ | ⟨-, rfl⟩
  · obtain ⟨hcache, hvalues, haddresses, hports⟩ := heffect.memories_wf
    exact inv_of_running hs hrun heffect.params_eq heffect.rom_eq heffect.imageStatus_eq (hcache hs.cache_wf)
      (hvalues hs.valueStack_wf) (haddresses hs.addressStack_wf) (hports hs.ports_wf)
  · exact inv_of_running hs hrun rfl rfl rfl hs.cache_wf hs.valueStack_wf hs.addressStack_wf hs.ports_wf

/-- Which moves are pending is no matter to the invariant. -/
theorem inv_with_hostMoves {s : State} (hs : s.Inv) (moves : List HostMove) :
    State.Inv { s with hostMoves := moves } :=
  { hs with }

theorem inv_importCode {s : State} (hs : s.Inv) (hstopped : s.running = false) (image : List Byte) :
    (s.importCode image).Inv := by
  rcases s.importCode_cases image with ⟨-, h⟩ | ⟨rs, -, hparse, h⟩ | ⟨e, hblank, -, h⟩
  · rw [h]
    exact hs
  · obtain ⟨hwf, hclear⟩ := storeRecords_wf_clear rs 0 s.rom
      (by rw [Nat.zero_add]; exact parseImage_length hparse) hs.rom_wf hs.rom_clear
    rw [h]
    exact { hs with
      rom_wf := hwf
      rom_clear := hclear
      rom_unloaded := fun hne => absurd rfl hne
      blank_stopped := nofun
      failed_stopped := nofun }
  · rw [h]
    exact { hs with
      rom_unloaded := fun _ => hs.rom_unloaded (by rw [hblank]; nofun)
      blank_stopped := nofun
      failed_stopped := fun _ => hstopped }

theorem inv_hostRun {s : State} (hs : s.Inv) : s.hostRun.Inv := by
  rcases s.hostRun_cases with ⟨-, h⟩ | ⟨hblank, h⟩ | ⟨hready, h⟩
  · rw [h]
    exact hs
  · rw [h]
    exact { hs with
      rom_unloaded := fun _ => hs.rom_unloaded (by rw [hblank]; nofun)
      blank_stopped := nofun
      failed_stopped := nofun }
  · have hnotBlank : s.imageStatus ≠ .blank := by rcases hready with h | h <;> simp [h]
    have hnotFailed : s.imageStatus ≠ .failed := by rcases hready with h | h <;> simp [h]
    rw [h]
    exact { hs with
      blank_stopped := fun hblank => absurd hblank hnotBlank
      failed_stopped := fun hfailed => absurd hfailed hnotFailed }

theorem inv_hostMove {s : State} (hs : s.Inv) (hstopped : s.running = false) (m : HostMove) : (s.hostMove m).Inv := by
  cases m with
  | initializeMemory => exact inv_with_hostMoves (inv_resetWith hs.params_wf) s.hostMoves
  | importCode image => exact inv_importCode hs hstopped image
  | run => exact inv_hostRun hs
  | writePort p v => exact { hs with ports_wf := Memory.write_wf p v hs.ports_wf }

/-- Settles O11: a step of a run keeps it by its handler's effect, a step of the host by the move it makes. -/
theorem everyStepKeepsTheInvariant : Obligations.EveryStepKeepsTheInvariant := by
  refine ⟨fun s t hs h => ?_, fun s t => step_params⟩
  cases hrun : s.running with
  | true => exact step_running_inv hs hrun h
  | false =>
    rcases step_stopped_cases hrun h with ⟨-, rfl⟩ | ⟨m, rest, -, rfl⟩
    · exact hs
    · exact inv_hostMove (inv_with_hostMoves hs rest) hrun m

end Sys2Proof.Proofs
end

section
/-! Shifts and rotations (spec/43_flags_logic_shift.md): a shift as a number for the whole count, a rotation bit by bit. -/

namespace Sys2Proof.Proofs
open Sys2Proof.Machine

/-- A left shift by 16 or more leaves nothing of the word (decision D8). -/
theorem shiftLeft_eq_zero {a : Word} {n : Nat} (h : 16 ≤ n) : shiftLeft a n = 0#16 := by
  apply BitVec.eq_of_toNat_eq
  rw [shiftLeft_toNat]
  exact Nat.mod_eq_zero_of_dvd (Dvd.dvd.mul_left (pow_dvd_pow 2 h) a.toNat)

/-- A right shift by 16 or more leaves nothing of the word (decision D8). -/
theorem shiftRight_eq_zero {a : Word} {n : Nat} (h : 16 ≤ n) : shiftRight a n = 0#16 := by
  apply BitVec.eq_of_toNat_eq
  rw [shiftRight_toNat]
  exact Nat.div_eq_of_lt (Nat.lt_of_lt_of_le a.isLt (Nat.pow_le_pow_right Nat.two_pos h))

/-- Settles O41: V is written from the old word, then `ACC` with the shifted one. -/
theorem lslShiftsTheWholeCount : Obligations.LslShiftsTheWholeCount := fun o s =>
  ⟨_, exec_lsl o s, rfl, shiftLeft_toNat s.acc (busValue o s).toNat, shiftLeft_eq_zero,
    stepEnds_of_exec (exec_lsl o s)⟩

/-- Settles O42: U is written from the old word, then `ACC` with the shifted one. -/
theorem lsrShiftsTheWholeCount : Obligations.LsrShiftsTheWholeCount := fun o s =>
  ⟨_, exec_lsr o s, rfl, shiftRight_toNat s.acc (busValue o s).toNat, shiftRight_eq_zero,
    stepEnds_of_exec (exec_lsr o s)⟩

/-- Rotation left moves bit `k` up by the count modulo 16: by the left shift if it stays inside the word, else by the right
shift. -/
theorem rotateLeft_getLsbD (a : Word) (n : Nat) {k : Nat} (hk : k < 16) :
    (rotateLeft a n).getLsbD ((k + n) % 16) = a.getLsbD k := by
  have hr : n % 16 < 16 := Nat.mod_lt n (by decide)
  rw [rotateLeft, BitVec.getLsbD_or, shiftLeft_getLsbD, shiftRight_getLsbD]
  by_cases hstays : k + n % 16 < 16
  · have hplace : (k + n) % 16 = k + n % 16 := by omega
    have hover : a.getLsbD (16 - n % 16 + (k + n % 16)) = false := BitVec.getLsbD_of_ge _ _ (by omega)
    simp [hplace, hstays, hover]
  · have hplace : (k + n) % 16 = k + n % 16 - 16 := by omega
    have hbelow : ¬ n % 16 ≤ k + n % 16 - 16 := by omega
    have hback : 16 - n % 16 + (k + n % 16 - 16) = k := by omega
    simp [hplace, hbelow, hback]

/-- Rotation right takes bit `k` from that place. -/
theorem rotateRight_getLsbD (a : Word) (n : Nat) {k : Nat} (hk : k < 16) :
    (rotateRight a n).getLsbD k = a.getLsbD ((k + n) % 16) := by
  have hr : n % 16 < 16 := Nat.mod_lt n (by decide)
  rw [rotateRight, BitVec.getLsbD_or, shiftLeft_getLsbD, shiftRight_getLsbD]
  by_cases hstays : k + n % 16 < 16
  · have hplace : (k + n) % 16 = n % 16 + k := by omega
    have hbelow : ¬ 16 - n % 16 ≤ k := by omega
    simp [hplace, hbelow]
  · have hplace : (k + n) % 16 = k - (16 - n % 16) := by omega
    have hover : a.getLsbD (n % 16 + k) = false := BitVec.getLsbD_of_ge _ _ (by omega)
    have habove : 16 - n % 16 ≤ k := by omega
    simp [hplace, hk, hover, habove]

theorem rotateRight_rotateLeft (a : Word) (n : Nat) : rotateRight (rotateLeft a n) n = a := by
  apply BitVec.eq_of_getLsbD_eq
  intro k hk
  rw [rotateRight_getLsbD _ _ hk, rotateLeft_getLsbD _ _ hk]

/-- Settles O43: each handler is one write of `ACC`, with a word whose every bit is known, and the two writes cancel. -/
theorem rotationsMoveEveryBit : Obligations.RotationsMoveEveryBit := by
  refine ⟨fun o s => ⟨_, _, exec_rol o s, exec_ror o s, rfl, rfl, fun k hk => rotateLeft_getLsbD s.acc _ hk,
    fun k hk => rotateRight_getLsbD s.acc _ hk, stepEnds_of_exec (exec_rol o s), stepEnds_of_exec (exec_ror o s)⟩, ?_⟩
  intro v s l r hl hr
  obtain rfl := Host.Outcome.next.inj ((exec_rol _ s).symm.trans hl)
  obtain rfl := Host.Outcome.next.inj ((exec_ror _ _).symm.trans hr)
  exact congrArg s.setAcc (rotateRight_rotateLeft s.acc v.toNat)

end Sys2Proof.Proofs
end

section
/-! Arithmetic (spec/44_arithmetic.md): sums and differences with the flag they leave, product, quotient and remainder. -/

namespace Sys2Proof.Proofs
open Sys2Proof.Machine

/-- Settles O46: the old C is the third operand of the sum and of the difference. -/
theorem addcAndSubcConsumeTheCarry : Obligations.AddcAndSubcConsumeTheCarry := fun o s =>
  ⟨_, _, exec_addc o s, exec_subc o s, rfl, rfl,
    putSum_acc_toNat s s.acc (busValue o s) s.flags.c, above16_exactSum s.acc (busValue o s) s.flags.c,
    putDifference_acc_toNat s s.acc (busValue o s) s.flags.c, below0_exactDifference s.acc (busValue o s) s.flags.c,
    stepEnds_of_exec (exec_addc o s), stepEnds_of_exec (exec_subc o s)⟩

/-- With nothing to borrow beforehand, one wrap of 65536 is enough. -/
theorem putDifference_false_acc_toNat (s : State) (a b : Word) :
    (s.putDifference (exactDifference a b false)).acc.toNat = (a.toNat + 65536 - b.toNat) % 65536 := by
  have hb := b.isLt
  rw [putDifference_acc_toNat, Bool.toNat_false]
  omega

/-- Settles O45: the sum and the difference with no third operand. -/
theorem addAndSubWrapWithCarry : Obligations.AddAndSubWrapWithCarry := fun o s =>
  ⟨_, _, exec_add o s, exec_sub o s, rfl, rfl,
    putSum_acc_toNat s s.acc (busValue o s) false, above16_exactSum s.acc (busValue o s) false,
    putDifference_false_acc_toNat s s.acc (busValue o s), below0_exactDifference s.acc (busValue o s) false,
    stepEnds_of_exec (exec_add o s), stepEnds_of_exec (exec_sub o s)⟩

theorem putSum_one (s : State) : s.putSum (exactSum s.acc 1#16 false) =
    { s with acc := s.acc + 1, flags := { s.flags with c := decide (s.acc = 65535#16) } } := by
  have hacc : wrap16 (exactSum s.acc 1#16 false) = s.acc + 1 :=
    BitVec.eq_of_toNat_eq (putSum_acc_toNat s s.acc 1#16 false)
  have hcarry : above16 (exactSum s.acc 1#16 false) = decide (s.acc = 65535#16) := by
    rw [Bool.eq_iff_iff, above16_exactSum, decide_eq_true_iff, ← BitVec.toNat_inj, Bool.toNat_false]
    have hlt := s.acc.isLt
    simp only [BitVec.toNat_ofNat]
    omega
  rw [← hacc, ← hcarry]
  rfl

theorem putDifference_one (s : State) : s.putDifference (exactDifference s.acc 1#16 false) =
    { s with acc := s.acc - 1, flags := { s.flags with c := decide (s.acc = 0#16) } } := by
  have hlt := s.acc.isLt
  have hacc : wrap16 (exactDifference s.acc 1#16 false) = s.acc - 1 := by
    apply BitVec.eq_of_toNat_eq
    rw [← State.putDifference_acc s, putDifference_acc_toNat, Bool.toNat_false, BitVec.toNat_sub]
    simp only [BitVec.ofNat_eq_ofNat, BitVec.toNat_ofNat]
    omega
  have hborrow : below0 (exactDifference s.acc 1#16 false) = decide (s.acc = 0#16) := by
    rw [Bool.eq_iff_iff, below0_exactDifference, decide_eq_true_iff, ← BitVec.toNat_inj, Bool.toNat_false]
    simp only [BitVec.toNat_ofNat]
    omega
  rw [← hacc, ← hborrow]
  rfl

/-- Settles O47: the sum and the difference with 1, which leave the range at one word each. -/
theorem incAndDecWrapWithCarry : Obligations.IncAndDecWrapWithCarry := fun o s =>
  ⟨_, _, exec_inc o s, exec_dec o s, putSum_one s, putDifference_one s,
    stepEnds_of_exec (exec_inc o s), stepEnds_of_exec (exec_dec o s)⟩

/-- Settles O48: the product is exact before it is cut to 16 bits. -/
theorem mulKeepsTheLowHalf : Obligations.MulKeepsTheLowHalf := fun o s =>
  ⟨_, exec_mul o s, rfl, putProduct_acc_toNat s s.acc (busValue o s), above16_exactProduct s.acc (busValue o s),
    stepEnds_of_exec (exec_mul o s)⟩

theorem exec_div_of_ne_zero {o : Operand} {s : State} (h : busValue o s ≠ 0#16) :
    exec (.div o) s = .next (s.setAcc (BitVec.ofNat 16 (s.acc.toNat / (busValue o s).toNat))) := by
  rw [exec_div, if_neg h]

theorem exec_mod_of_ne_zero {o : Operand} {s : State} (h : busValue o s ≠ 0#16) :
    exec (.mod o) s = .next (s.setAcc (BitVec.ofNat 16 (s.acc.toNat % (busValue o s).toNat))) := by
  rw [exec_mod, if_neg h]

theorem exec_div_of_eq_zero {o : Operand} {s : State} (h : busValue o s = 0#16) :
    exec (.div o) s = .next (s.takeException .divideByZero) := by
  rw [exec_div, if_pos h]

theorem exec_mod_of_eq_zero {o : Operand} {s : State} (h : busValue o s = 0#16) :
    exec (.mod o) s = .next (s.takeException .divideByZero) := by
  rw [exec_mod, if_pos h]

/-- Settles O49: quotient and remainder fit the word, so `ACC` takes them whole, and they obey the division law. -/
theorem divAndModByNonzero : Obligations.DivAndModByNonzero := by
  intro o s hbus
  have hpos : 0 < (busValue o s).toNat := Nat.pos_of_ne_zero fun h => hbus (BitVec.eq_of_toNat_eq h)
  have hquotient : (BitVec.ofNat 16 (s.acc.toNat / (busValue o s).toNat)).toNat =
      s.acc.toNat / (busValue o s).toNat :=
    (BitVec.toNat_ofNat _ _).trans (Nat.mod_eq_of_lt <| Nat.lt_of_le_of_lt (Nat.div_le_self _ _) s.acc.isLt)
  have hremainder : (BitVec.ofNat 16 (s.acc.toNat % (busValue o s).toNat)).toNat =
      s.acc.toNat % (busValue o s).toNat :=
    (BitVec.toNat_ofNat _ _).trans (Nat.mod_eq_of_lt <| Nat.lt_of_le_of_lt (Nat.mod_le _ _) s.acc.isLt)
  refine ⟨_, _, exec_div_of_ne_zero hbus, exec_mod_of_ne_zero hbus, rfl, rfl, ?law, ?below,
    stepEnds_of_exec (exec_div_of_ne_zero hbus), stepEnds_of_exec (exec_mod_of_ne_zero hbus)⟩
  case law =>
    rw [State.setAcc_acc, State.setAcc_acc, hquotient, hremainder]
    exact (Nat.div_add_mod _ _).symm
  case below =>
    rw [State.setAcc_acc, hremainder]
    exact Nat.mod_lt _ hpos

/-- Settles O50: both handlers take the exception, which is a stop with its code and nothing else. -/
theorem divAndModByZeroStop : Obligations.DivAndModByZeroStop := fun _ _ h =>
  ⟨exec_div_of_eq_zero h, exec_mod_of_eq_zero h, stepEnds_of_exec (exec_div_of_eq_zero h),
    stepEnds_of_exec (exec_mod_of_eq_zero h)⟩

/-! ## Numbers of 32 bits -/

theorem append_toNat (hi lo : Word) : (hi ++ lo : BitVec 32).toNat = hi.toNat * 65536 + lo.toNat := by
  rw [BitVec.toNat_append, ← Nat.shiftLeft_add_eq_or_of_lt lo.isLt, Nat.shiftLeft_eq]

theorem toNat_eq_ite_of_iff {b : Bool} {p : Prop} [Decidable p] (h : b = true ↔ p) : b.toNat = if p then 1 else 0 := by
  simp only [← h]
  cases b <;> rfl

/-- Words whose numbers add up half by half, with the low carry into the high half, are the 32-bit sum. -/
theorem append_eq_add {a1 a0 b1 b0 hi lo : Word} {carry : Bool}
    (hlo : lo.toNat = (a0.toNat + b0.toNat) % 65536) (hcarry : carry = true ↔ 65535 < a0.toNat + b0.toNat)
    (hhi : hi.toNat = (a1.toNat + b1.toNat + carry.toNat) % 65536) :
    (hi ++ lo : BitVec 32) = (a1 ++ a0 : BitVec 32) + (b1 ++ b0 : BitVec 32) := by
  have ha := a0.isLt
  have hb := b0.isLt
  apply BitVec.eq_of_toNat_eq
  rw [BitVec.toNat_add, append_toNat, append_toNat, append_toNat]
  rw [toNat_eq_ite_of_iff hcarry] at hhi
  split at hhi <;> omega

/-- Words whose numbers subtract half by half, with the low borrow from the high half, are the 32-bit difference. -/
theorem append_eq_sub {a1 a0 b1 b0 hi lo : Word} {borrow : Bool}
    (hlo : lo.toNat = (a0.toNat + 65536 - b0.toNat) % 65536) (hborrow : borrow = true ↔ a0.toNat < b0.toNat)
    (hhi : hi.toNat = (a1.toNat + 131072 - b1.toNat - borrow.toNat) % 65536) :
    (hi ++ lo : BitVec 32) = (a1 ++ a0 : BitVec 32) - (b1 ++ b0 : BitVec 32) := by
  have ha0 := a0.isLt
  have hb0 := b0.isLt
  have ha1 := a1.isLt
  have hb1 := b1.isLt
  apply BitVec.eq_of_toNat_eq
  rw [BitVec.toNat_sub, append_toNat, append_toNat, append_toNat]
  rw [toNat_eq_ite_of_iff hborrow] at hhi
  split at hhi <;> omega

/-- Settles O51: the low half's flag is the third operand of the high half, the add's carry and the sub's borrow. -/
theorem carryChainsAddThirtyTwoBits : Obligations.CarryChainsAddThirtyTwoBits := by
  intro s lo hi lo' hi' a0 a1 b0 b1 hlo hhi hlo' hhi'
  obtain rfl := Host.Outcome.next.inj ((exec_add _ _).symm.trans hlo)
  obtain rfl := Host.Outcome.next.inj ((exec_addc _ _).symm.trans hhi)
  obtain rfl := Host.Outcome.next.inj ((exec_sub _ _).symm.trans hlo')
  obtain rfl := Host.Outcome.next.inj ((exec_subc _ _).symm.trans hhi')
  exact ⟨append_eq_add (putSum_acc_toNat _ a0 b0 false) (above16_exactSum a0 b0 false) (putSum_acc_toNat _ a1 b1 _),
    append_eq_sub (putDifference_false_acc_toNat _ a0 b0) (below0_exactDifference a0 b0 false)
      (putDifference_acc_toNat _ a1 b1 _)⟩

end Sys2Proof.Proofs
end

section
/-! How a run ends (spec/40_dispatch_engine.md R64, R71, spec/60_exceptions.md R112): the causes of a stop and their
codes, and the loop up to its first stopping step. -/

namespace Sys2Proof.Proofs
open Sys2Proof.Machine

theorem unclaimed_of_decodeWith {f : OpcodeMap} {w : RomWord} {op : Opcode} (h : decodeWith f w = .unknownOpcode op)
    (n : Mnemonic) : f n ≠ (decodeFields w).op := by
  cases hslot : dispatchSlot f (decodeFields w).op with
  | none => exact fun heq => List.find?_eq_none.mp hslot n n.mem_all (beq_iff_eq.mpr heq)
  | some n' => simp [decodeWith, hslot] at h

/-- A handler leaves the stop state as it is, or stops the run with the code of its own cause. -/
theorem HandlerEffect.stop_cases {s u : State} {n : Mnemonic} {o : Operand} (h : HandlerEffect s n o u) :
    u.running = s.running ∧ u.exitCode = s.exitCode ∨
    u.running = false ∧ (s.About (Instr.ofMnemonic n o) → StopsWith s u.exitCode) := by
  cases h with
  | halt => exact .inr ⟨rfl, .halt o⟩
  | int => exact .inr ⟨rfl, .int o⟩
  | divideByZero hn h0 =>
    rcases List.mem_pair.mp hn with rfl | rfl
    · exact .inr ⟨rfl, fun habout => .div o habout h0⟩
    · exact .inr ⟨rfl, fun habout => .mod o habout h0⟩
  | _ => exact .inl ⟨rfl, rfl⟩

/-- Settles O16: of the handler effects only the stops write `running`, and the trap handler is the fifth of them. -/
theorem onlyStopsEndARun : Obligations.OnlyStopsEndARun := by
  intro s t hrun hstep
  obtain ⟨u, hu, rfl⟩ := (step_eq_next_iff hrun).mp hstep
  rw [afterHandler_running, afterHandler_exitCode]
  rcases dispatchWord_cases hu with ⟨n, o, hdecode, heffect⟩ | ⟨⟨op, hdecode⟩, rfl⟩
  · rcases heffect.stop_cases with ⟨hkept, hcode⟩ | ⟨hstopped, hcause⟩
    · exact ⟨fun hstopped => absurd hrun (by simp [← hkept, hstopped]), fun _ => hcode⟩
    · exact ⟨fun _ => hcause ⟨hrun, hdecode⟩, fun hgoes => absurd hgoes (by simp [hstopped])⟩
  · exact ⟨fun _ => .trap hrun (unclaimed_of_decodeWith hdecode), nofun⟩

/-- Each cause runs a handler that stops, and what follows a handler keeps the stop state. -/
theorem exists_step_of_stopsWith {s : State} {code : Int} (h : StopsWith s code) :
    ∃ t, step s = .next t ∧ t.running = false ∧ t.exitCode = code := by
  cases h with
  | halt o habout => exact ⟨_, stepEnds_of_exec (exec_halt o s) habout, rfl, rfl⟩
  | int o habout => exact ⟨_, stepEnds_of_exec (exec_int o s) habout, rfl, rfl⟩
  | div o habout h0 => exact ⟨_, stepEnds_of_exec (exec_div_of_eq_zero h0) habout, rfl, rfl⟩
  | mod o habout h0 => exact ⟨_, stepEnds_of_exec (exec_mod_of_eq_zero h0) habout, rfl, rfl⟩
  | trap hrun hunclaimed => exact ⟨_, unclaimedOpcodeTraps s hrun hunclaimed, rfl, rfl⟩

/-- R5's constraints on the two exception codes. -/
theorem exceptionCodes_of_wellFormed {p : Config.Params} (h : p.wellFormed = true) :
    (p.trapExitCode ≠ 0 ∧ p.trapExitCode ≠ 128) ∧
    p.divZeroExitCode ≠ 0 ∧ p.divZeroExitCode ≠ 128 ∧ p.divZeroExitCode ≠ p.trapExitCode ∧
    (p.divZeroExitCode < 0 ∨ 65535 < p.divZeroExitCode) := by
  obtain ⟨-, htrap, hdivZero⟩ := p.wellFormed_iff.mp h
  exact ⟨by simpa [Config.Params.trapCodeOk] using htrap,
    by simpa [Config.Params.divZeroCodeOk, and_assoc] using hdivZero⟩

theorem toNat_ne_divZeroExitCode {p : Config.Params} (h : p.wellFormed = true) (n : Word) :
    (n.toNat : Int) ≠ p.divZeroExitCode := by
  obtain ⟨-, -, -, -, hrange⟩ := exceptionCodes_of_wellFormed h
  have hn := n.isLt
  omega

/-- A code of `int` that is no other cause's is read back as the guest's (R112). -/
theorem stopCause_guest {p : Config.Params} (h : p.wellFormed = true) {n : Word} (h0 : n ≠ 0#16) (h128 : n ≠ 128#16)
    (htrap : (n.toNat : Int) ≠ p.trapExitCode) : stopCause p (n.toNat : Int) = some (.guest n) := by
  have hne0 : n.toNat ≠ 0 := fun heq => h0 (BitVec.eq_of_toNat_eq heq)
  have hne128 : n.toNat ≠ 128 := fun heq => h128 (BitVec.eq_of_toNat_eq heq)
  have hlt := n.isLt
  have hword : wrap16 (n.toNat : Int) = n := by simp [wrap16]
  rw [stopCause, if_neg (by omega), if_neg (by omega), if_neg htrap, if_neg (toNat_ne_divZeroExitCode h n),
    if_pos (by omega), hword]

/-- Settles O17: a stop's code goes through the step unchanged, and R5's constraints keep the codes of the causes apart. -/
theorem everyStopCauseEndsTheRun : Obligations.EveryStopCauseEndsTheRun := by
  refine ⟨fun s code => exists_step_of_stopsWith, defaultParams_wellFormed, fun n => ⟨?_, ?_⟩, fun p h => ?_⟩
  · simp only [defaultParams]
    omega
  · exact toNat_ne_divZeroExitCode defaultParams_wellFormed n
  · obtain ⟨⟨htrap0, htrap128⟩, hdiv0, hdiv128, hdivTrap, -⟩ := exceptionCodes_of_wellFormed h
    refine ⟨rfl, rfl, ?_, ?_, fun n => ⟨toNat_ne_divZeroExitCode h n, stopCause_guest h⟩⟩
    · rw [stopCause, if_neg htrap0, if_neg htrap128, if_pos rfl]
    · rw [stopCause, if_neg hdiv0, if_neg hdiv128, if_neg hdivTrap, if_pos rfl]

/-! ## The loop -/

/-- The loop's first step: the run goes on from the state it leaves, or that state is the loop's result. -/
theorem runUntilStop_succ {k : Nat} {s t : State} (hrun : s.running = true) (h : runUntilStop (k + 1) s = some t) :
    ∃ u, step s = .next u ∧
      (u.running = true ∧ runUntilStop k u = some t ∨ u.running = false ∧ u = t) := by
  obtain ⟨u, hu⟩ := exists_step_eq_next s
  rw [runUntilStop, ← step_running hrun, hu] at h
  cases hu' : u.running with
  | true => exact ⟨u, hu, .inl ⟨hu', by simpa [hu'] using h⟩⟩
  | false => exact ⟨u, hu, .inr ⟨hu', by simpa [hu'] using h⟩⟩

theorem core_run_zero (s : State) : Host.Core.run core 0 s = .next s := rfl

theorem core_run_succ {s u : State} (h : step s = .next u) (n : Nat) :
    Host.Core.run core (n + 1) s = Host.Core.run core n u := by
  have hcore : core.step s = .next u := h
  simp only [Host.Core.run, hcore]

/-- Settles O59, by induction on the bound: the steps after the first are the loop's from the state the first one left. -/
theorem runEndsAtItsFirstStop : Obligations.RunEndsAtItsFirstStop := by
  intro k
  induction k with
  | zero => exact fun s t _ h => nomatch h
  | succ k ih =>
    intro s t hrun h
    obtain ⟨u, hstep, ⟨hgoes, hrest⟩ | ⟨hstopped, rfl⟩⟩ := runUntilStop_succ hrun h
    · obtain ⟨n, hpos, hle, hend, hstopped, hcount, hbefore⟩ := ih u t hgoes hrest
      refine ⟨n + 1, by omega, by omega, by rw [core_run_succ hstep, hend], hstopped, ?_, fun j hj => ?_⟩
      · rw [hcount, step_running_instructionsExecuted hrun hstep]
        omega
      · cases j with
        | zero => exact ⟨s, core_run_zero s, hrun⟩
        | succ j =>
          rw [core_run_succ hstep]
          exact hbefore j (by omega)
    · refine ⟨1, Nat.le_refl 1, by omega, by rw [core_run_succ hstep, core_run_zero], hstopped,
        step_running_instructionsExecuted hrun hstep, fun j hj => ⟨s, ?_, hrun⟩⟩
      obtain rfl : j = 0 := by omega
      exact core_run_zero s

end Sys2Proof.Proofs
end

section
/-! What no handler reads: ROM, the count, `exit_code`, the import's status and the host's pending moves (spec/10_state.md
R24, spec/20_memory.md R30). -/

namespace Sys2Proof.Proofs
open Sys2Proof.Machine

/-- The state with other values in the fields that no handler reads. -/
def withUnread (s : State) (rom : Memory 32) (count : Nat) (code : Int) (status : ImageStatus)
    (moves : List HostMove) : State :=
  { s with rom := rom, instructionsExecuted := count, exitCode := code, imageStatus := status, hostMoves := moves }

theorem exec_jumpc_of_selected {o : Operand} {s : State} (h : s.flags.selected (busValue o s) = true) :
    exec (.jumpc o) s = .next (s.aimPc s.pr) := by
  rw [exec_jumpc, if_pos h]

theorem exec_jumpc_of_not_selected {o : Operand} {s : State} (h : ¬ s.flags.selected (busValue o s) = true) :
    exec (.jumpc o) s = .next s := by
  rw [exec_jumpc, if_neg h]

/-- A handler answers the same with other values in the unread fields, which it leaves there but for a stop's own code. -/
theorem exec_withUnread {i : Instr} {s u : State} (rom : Memory 32) (count : Nat) (code : Int) (status : ImageStatus)
    (moves : List HostMove) (h : exec i s = .next u) :
    ∃ code', exec i (withUnread s rom count code status moves) = .next (withUnread u rom count code' status moves) ∧
      (code' = code ∧ u.exitCode = s.exitCode ∨ code' = u.exitCode) := by
  cases i with
  | jumpc o =>
    by_cases hsel : s.flags.selected (busValue o s) = true
    · obtain rfl := Host.Outcome.next.inj ((exec_jumpc_of_selected hsel).symm.trans h)
      exact ⟨code, exec_jumpc_of_selected hsel, .inl ⟨rfl, rfl⟩⟩
    · obtain rfl := Host.Outcome.next.inj ((exec_jumpc_of_not_selected hsel).symm.trans h)
      exact ⟨code, exec_jumpc_of_not_selected hsel, .inl ⟨rfl, rfl⟩⟩
  | div o =>
    by_cases h0 : busValue o s = 0#16
    · obtain rfl := Host.Outcome.next.inj ((exec_div_of_eq_zero h0).symm.trans h)
      exact ⟨_, exec_div_of_eq_zero h0, .inr rfl⟩
    · obtain rfl := Host.Outcome.next.inj ((exec_div_of_ne_zero h0).symm.trans h)
      exact ⟨code, exec_div_of_ne_zero h0, .inl ⟨rfl, rfl⟩⟩
  | mod o =>
    by_cases h0 : busValue o s = 0#16
    · obtain rfl := Host.Outcome.next.inj ((exec_mod_of_eq_zero h0).symm.trans h)
      exact ⟨_, exec_mod_of_eq_zero h0, .inr rfl⟩
    · obtain rfl := Host.Outcome.next.inj ((exec_mod_of_ne_zero h0).symm.trans h)
      exact ⟨code, exec_mod_of_ne_zero h0, .inl ⟨rfl, rfl⟩⟩
  | int | halt =>
    obtain rfl := Host.Outcome.next.inj h
    exact ⟨_, rfl, .inr rfl⟩
  | _ =>
    obtain rfl := Host.Outcome.next.inj h
    exact ⟨code, rfl, .inl ⟨rfl, rfl⟩⟩

/-- Settles O18: the case of `exec_withUnread` with the state's own ROM. -/
theorem engineStatusIsInvisible : Obligations.EngineStatusIsInvisible := by
  intro i s u n e g h hu
  obtain ⟨e', hu', hcode⟩ := exec_withUnread s.rom n e g h hu
  refine ⟨withUnread u s.rom n e' g h, hu', ?_, hcode⟩
  rw [withUnread, ← (effect_of_exec hu).rom_eq]

/-- An import out of its turn is refused (R132, decision D21). -/
theorem importCode_of_not_blank {s : State} (h : s.imageStatus ≠ .blank) (image : List Byte) :
    s.importCode image = s := by
  rcases s.importCode_cases image with ⟨-, hsame⟩ | ⟨_, hblank, -⟩ | ⟨_, hblank, -⟩
  · exact hsame
  · exact absurd hblank h
  · exact absurd hblank h

theorem hostRun_rom (s : State) : s.hostRun.rom = s.rom := by
  rcases s.hostRun_cases with ⟨-, h⟩ | ⟨-, h⟩ | ⟨-, h⟩ <;> rw [h] <;> rfl

/-- Settles O19: no handler effect writes ROM, none depends on it, and between runs the move made says what may. -/
theorem romIsReadOnlyInARun : Obligations.RomIsReadOnlyInARun := by
  refine ⟨fun s t => step_running_rom, fun i s u rom hu => ?replaced, fun s t hstopped h => ?between⟩
  case replaced =>
    have heffect := effect_of_exec hu
    obtain ⟨code', hu', hcode⟩ :=
      exec_withUnread rom s.instructionsExecuted s.exitCode s.imageStatus s.hostMoves hu
    have hsame : code' = u.exitCode := by
      rcases hcode with ⟨hkept, hown⟩ | hstop
      · rw [hkept, hown]
      · exact hstop
    refine hu'.trans (congrArg Host.Outcome.next ?_)
    rw [hsame, withUnread, ← heffect.instructionsExecuted_eq, ← heffect.imageStatus_eq, ← heffect.hostMoves_eq]
  case between =>
    rcases step_stopped_cases hstopped h with ⟨-, rfl⟩ | ⟨m, rest, hmoves, rfl⟩
    · exact .inl rfl
    · cases m with
      | initializeMemory => exact .inr (.inr ⟨rest, hmoves⟩)
      | importCode image =>
        by_cases hblank : s.imageStatus = .blank
        · exact .inr (.inl ⟨image, rest, hmoves, hblank⟩)
        · exact .inl (by rw [State.hostMove, importCode_of_not_blank (s := { s with hostMoves := rest }) hblank])
      | run => exact .inl (hostRun_rom _)
      | writePort p v => exact .inl rfl

end Sys2Proof.Proofs
end

section
/-! Memories as data (spec/20_memory.md): by induction on the canonical lists, what is read alike is the same list. -/

namespace Sys2Proof.Proofs
open Sys2Proof.Machine

/-- Past the end of the space a canonical memory lists nothing. -/
theorem get_of_spaceCells_le {w lo a : Nat} {m : Memory w} (h : Memory.wfFrom lo m = true)
    (ha : Config.spaceCells ≤ a) : m.get a = Memory.unlisted := by
  induction m generalizing lo with
  | nil => rfl
  | cons c m ih =>
    obtain ⟨-, hinside, -, htail⟩ := (Memory.wfFrom_cons lo c m).mp h
    rw [Memory.get_cons, if_neg (by omega), ih htail]

/-- The first entry of a canonical memory is a cell that no memory canonical from a later index on has. -/
theorem head_ne_get_of_lt {w lo lo' : Nat} {c : Nat × BitVec w} {m m' : Memory w}
    (h : Memory.wfFrom lo (c :: m) = true) (h' : Memory.wfFrom lo' m' = true) (hlt : c.1 < lo') :
    Memory.get (c :: m) c.1 ≠ m'.get c.1 := by
  obtain ⟨-, -, hlisted, -⟩ := (Memory.wfFrom_cons lo c m).mp h
  rw [Memory.get_cons, if_pos rfl, Memory.get_below h' hlt]
  exact hlisted

theorem wfFrom_own_index {w lo : Nat} {c : Nat × BitVec w} {m : Memory w} (h : Memory.wfFrom lo (c :: m) = true) :
    Memory.wfFrom c.1 (c :: m) = true := by
  rw [Memory.wfFrom_cons] at h ⊢
  exact ⟨le_rfl, h.2⟩

/-- Canonical memories with equal contents have the same first entry. -/
theorem head_eq_of_get_eq {w lo : Nat} {c c' : Nat × BitVec w} {m m' : Memory w}
    (h : Memory.wfFrom lo (c :: m) = true) (h' : Memory.wfFrom lo (c' :: m') = true)
    (hget : ∀ a, Memory.get (c :: m) a = Memory.get (c' :: m') a) : c = c' := by
  have hindex : c.1 = c'.1 := by
    rcases Nat.lt_trichotomy c.1 c'.1 with hlt | heq | hgt
    · exact absurd (hget c.1) (head_ne_get_of_lt h (wfFrom_own_index h') hlt)
    · exact heq
    · exact absurd (hget c'.1).symm (head_ne_get_of_lt h' (wfFrom_own_index h) hgt)
  have hcell := hget c.1
  rw [Memory.get_cons, if_pos rfl, Memory.get_cons, if_pos hindex.symm] at hcell
  exact Prod.ext hindex hcell

/-- Below a shared first entry the contents are equal too: neither tail lists the first entry's index. -/
theorem tail_get_eq {w lo lo' : Nat} {c : Nat × BitVec w} {m m' : Memory w}
    (h : Memory.wfFrom lo (c :: m) = true) (h' : Memory.wfFrom lo' (c :: m') = true)
    (hget : ∀ a, Memory.get (c :: m) a = Memory.get (c :: m') a) (a : Nat) : m.get a = m'.get a := by
  obtain ⟨-, -, -, htail⟩ := (Memory.wfFrom_cons lo c m).mp h
  obtain ⟨-, -, -, htail'⟩ := (Memory.wfFrom_cons lo' c m').mp h'
  by_cases ha : c.1 = a
  · rw [Memory.get_below htail (by omega), Memory.get_below htail' (by omega)]
  · have hcons := hget a
    rwa [Memory.get_cons, if_neg ha, Memory.get_cons, if_neg ha] at hcons

theorem eq_of_wfFrom_of_get_eq {w lo : Nat} {m m' : Memory w} (h : Memory.wfFrom lo m = true)
    (h' : Memory.wfFrom lo m' = true) (hget : ∀ a, m.get a = m'.get a) : m = m' := by
  induction m generalizing lo m' with
  | nil =>
    cases m' with
    | nil => rfl
    | cons c' m' => exact absurd (hget c'.1).symm (head_ne_get_of_lt (lo' := c'.1 + 1) h' rfl (by omega))
  | cons c m ih =>
    cases m' with
    | nil => exact absurd (hget c.1) (head_ne_get_of_lt (lo' := c.1 + 1) h rfl (by omega))
    | cons c' m' =>
      obtain rfl := head_eq_of_get_eq h h' hget
      obtain ⟨-, -, -, htail⟩ := (Memory.wfFrom_cons lo c m).mp h
      obtain ⟨-, -, -, htail'⟩ := (Memory.wfFrom_cons lo c m').mp h'
      rw [ih htail htail' (tail_get_eq h h' hget)]

/-- Settles O8: the reads cover the space, and past it both memories list nothing. -/
theorem canonicalMemoriesWithEqualReads : Obligations.CanonicalMemoriesWithEqualReads := by
  intro w m m' h h' hread
  refine eq_of_wfFrom_of_get_eq h h' fun a => ?_
  by_cases ha : a < Config.spaceCells
  · have hword : (BitVec.ofNat 16 a).toNat = a := (BitVec.toNat_ofNat a 16).trans (Nat.mod_eq_of_lt ha)
    simpa [Memory.read, hword] using hread (BitVec.ofNat 16 a)
  · rw [get_of_spaceCells_le h (by omega), get_of_spaceCells_le h' (by omega)]

end Sys2Proof.Proofs
end

section
/-! The stacks (spec/41_data_transfer.md, spec/42_control_transfer.md), where what is pushed last is popped first, and the
handlers that ignore their operand (spec/30_encoding.md R51). -/

namespace Sys2Proof.Proofs
open Sys2Proof.Machine

/-- Settles O31: one write of the value stack at the old `SP`, of what the parameter names. -/
theorem pushWritesThenIncrements : Obligations.PushWritesThenIncrements := fun o s =>
  ⟨_, exec_push o s, rfl, write_oneCellWritten s.valueStack s.sp _, fun hacc => by rw [hacc]; rfl,
    fun hbus => by rw [hbus]; rfl, stepEnds_of_exec (exec_push o s)⟩

/-- The cell below the next one is the cell itself, across the wrap too. -/
theorem read_write_below_next (m : Memory 16) (a v : Word) : (m.write a v).read (a + 1 - 1) = v := by
  rw [BitVec.add_sub_cancel, Memory.read_write_same]

/-- Of two cells written upwards from `a`, the reads downwards give the second and then the first. -/
theorem read_two_writes_below_next (m : Memory 16) (a v v' : Word) :
    ((m.write a v).write (a + 1) v').read (a + 1 + 1 - 1) = v' ∧
    ((m.write a v).write (a + 1) v').read (a + 1 + 1 - 1 - 1) = v := by
  have hne : a ≠ a + 1 := by simp
  refine ⟨read_write_below_next _ _ _, ?_⟩
  rw [BitVec.add_sub_cancel, BitVec.add_sub_cancel, Memory.read_write_other _ _ hne, Memory.read_write_same]

/-- Settles O33: each handler's `exec_` law gives its state, and the pops read the two written cells from above. -/
theorem pushPushPopPopRestores : Obligations.PushPushPopPopRestores := by
  intro s s1 s2 s3 s4 o1 o2 o3 o4 x y z h1 h2 h3 h4
  obtain rfl := Host.Outcome.next.inj ((exec_push _ _).symm.trans h1)
  obtain rfl := Host.Outcome.next.inj ((exec_push _ _).symm.trans h2)
  obtain rfl := Host.Outcome.next.inj ((exec_pop _ _).symm.trans h3)
  obtain rfl := Host.Outcome.next.inj ((exec_pop _ _).symm.trans h4)
  obtain ⟨hsecond, hfirst⟩ := read_two_writes_below_next s.valueStack s.sp
    (pushOperand s.params.pushSource o1 s)
    (pushOperand s.params.pushSource o2 { s.pushValue (pushOperand s.params.pushSource o1 s) with acc := x })
  have hsp : s.sp + 1 + 1 - 1 - 1 = s.sp := by rw [BitVec.add_sub_cancel, BitVec.add_sub_cancel]
  exact ⟨hsecond, hfirst, hsp, fun hacc => ⟨hsecond.trans (by rw [hacc]; rfl), hfirst.trans (by rw [hacc]; rfl)⟩⟩

/-- Settles O38: the call writes its address at the old `ASP`, which the return goes back down to. -/
theorem callThenReturnComesBack : Obligations.CallThenReturnComesBack := by
  intro s t r o o' hcall hstep hret hstep'
  obtain rfl := Host.Outcome.next.inj ((stepEnds_of_exec (exec_call o s) hcall).symm.trans hstep)
  obtain rfl := Host.Outcome.next.inj ((stepEnds_of_exec (exec_ret o' _) hret).symm.trans hstep')
  have hsaved := read_write_below_next s.addressStack s.asp s.pc
  exact ⟨afterHandler_aimPc_pc (s.pushAddress s.pc) (busValue o s), hsaved, congrArg (· + 1) hsaved,
    BitVec.add_sub_cancel s.asp 1#16⟩

/-! ## Operands and ports -/

theorem exec_busIgnorer (s : State) (o o' : Operand) :
    ∀ n ∈ busIgnorers, exec (Instr.ofMnemonic n o) s = exec (Instr.ofMnemonic n o') s := by
  simp only [busIgnorers, List.forall_mem_cons]
  exact ⟨rfl, rfl, rfl, rfl, rfl, rfl, rfl, rfl, rfl, nofun⟩

/-- Settles O25: nine handlers do not name the operand, and `push` does only for the other source. -/
theorem ignoredOperandsHaveNoEffect : Obligations.IgnoredOperandsHaveNoEffect := by
  rintro n s (hn | ⟨rfl, hacc⟩) o o'
  · exact exec_busIgnorer s o o' n hn
  · rw [Instr.ofMnemonic, Instr.ofMnemonic, exec_push, exec_push, hacc, pushOperand, pushOperand]

/-- Settles O53: the handler is one write of `ACC`. -/
theorem portrReadsTheNamedPort : Obligations.PortrReadsTheNamedPort := fun o s =>
  ⟨_, exec_portr o s, rfl, stepEnds_of_exec (exec_portr o s)⟩

end Sys2Proof.Proofs
end

section
/-! The host's side (spec/30_encoding.md R57 to R60, spec/60_exceptions.md R121 to R128, spec/70_reset_and_hazards.md R131,
R132): the moves of a stopped core, the import and the dump. -/

namespace Sys2Proof.Proofs
open Sys2Proof.Machine

/-- Settles O55: the step is the pending reset. -/
theorem initializeMemoryResets : Obligations.InitializeMemoryResets := fun _ _ => step_of_move

theorem hostRun_of_failed {s : State} (h : s.imageStatus = .failed) : s.hostRun = s := by
  rw [State.hostRun, h]

/-- A `run` that starts one leaves blank behind and keeps every other status. -/
theorem hostRun_of_ne_failed {s : State} (h : s.imageStatus ≠ .failed) : s.hostRun =
    { s.startRun with imageStatus := if s.imageStatus = .blank then .closed else s.imageStatus } := by
  rcases s.hostRun_cases with ⟨hfailed, -⟩ | ⟨hblank, hrun⟩ | ⟨hready, hrun⟩
  · exact absurd hfailed h
  · rw [hrun, if_pos hblank]
  · rw [hrun, if_neg (by rcases hready with h | h <;> simp [h])]
    rfl

/-- Settles O56: the step is the pending move, or none. -/
theorem hostMovesBetweenRuns : Obligations.HostMovesBetweenRuns := by
  intro s rest p v hstopped
  refine ⟨fun hmoves hstatus => ?_, fun hmoves hstatus => ?_, fun hmoves => ?_, fun hmoves => ?_⟩
  · rw [step_of_move hstopped hmoves, State.hostMove, hostRun_of_ne_failed (s := { s with hostMoves := rest }) hstatus]
    rfl
  · rw [step_of_move hstopped hmoves, State.hostMove, hostRun_of_failed (s := { s with hostMoves := rest }) hstatus]
  · exact ⟨_, step_of_move hstopped hmoves, rfl, write_oneCellWritten s.ports p v⟩
  · rw [step_stopped hstopped, hostStep_nil hmoves]

/-! ## The import -/

theorem importCode_of_ok {s : State} {image : List Byte} {rs : List Record} (hblank : s.imageStatus = .blank)
    (hparse : parseImage image = .ok rs) :
    s.importCode image = { s with rom := storeRecords 0 rs s.rom, imageStatus := .loaded } := by
  simp only [State.importCode, hblank, hparse]

theorem importCode_of_error {s : State} {image : List Byte} {e : LoadError} (hblank : s.imageStatus = .blank)
    (hparse : parseImage image = .error e) : s.importCode image = { s with imageStatus := .failed } := by
  simp only [State.importCode, hblank, hparse]

/-- An image of whole records, no more than ROM has cells, parses to them. -/
theorem parseImage_of_records {records : List (Byte × Byte × Byte × Byte)} (hlen : records.length ≤ 65536) :
    parseImage ([0x51#8, 0x54#8, 0x00#8] ++ records.flatMap fun b => [b.1, b.2.1, b.2.2.1, b.2.2.2]) =
      .ok (records.map fun b => Record.ofBytes b.1 b.2.1 b.2.2.1 b.2.2.2) := by
  have hsplit := splitAtNul_append (tag := imageTag)
    (records.flatMap fun b => [b.1, b.2.1, b.2.2.1, b.2.2.2]) (by decide)
  have himage : imageTag ++ 0#8 :: (records.flatMap fun b => [b.1, b.2.1, b.2.2.1, b.2.2.2]) =
    [0x51#8, 0x54#8, 0x00#8] ++ records.flatMap fun b => [b.1, b.2.1, b.2.2.1, b.2.2.2] := rfl
  rw [himage] at hsplit
  simp only [parseImage, hsplit, parseRecords_flatMap, if_true, List.length_map]
  exact if_pos hlen

/-- A record's word is the unmasked formula of its bytes: what the formula makes of them fits the cell. -/
theorem word_ofBytes_toNat (b0 b1 b2 b3 : Byte) : (Record.ofBytes b0 b1 b2 b3).word.toNat =
    encodeRaw (b0.toNat % 2) (b1.toNat * 256 + b2.toNat) b3.toNat := by
  have h1 := b1.isLt
  have h2 := b2.isLt
  have h3 := b3.isLt
  have hm : (b0.getLsbD 0).toNat = b0.toNat % 2 := by
    rw [BitVec.getLsbD, Nat.toNat_testBit, pow_zero, Nat.div_one]
  have hv : (BitVec.ofNat 16 (b1.toNat <<< 8 ||| b2.toNat)).toNat = b1.toNat * 256 + b2.toNat := by
    rw [← Nat.shiftLeft_add_eq_or_of_lt h2, Nat.shiftLeft_eq, BitVec.toNat_ofNat]
    omega
  have hfits : encodeRaw (b0.toNat % 2) (b1.toNat * 256 + b2.toNat) b3.toNat < 2 ^ 32 := by
    rw [encodeRaw, Nat.shiftLeft_eq, Nat.shiftLeft_eq]
    exact Nat.or_lt_two_pow (Nat.or_lt_two_pow (by omega) (by omega)) (by omega)
  rw [Record.word, Record.ofBytes, hm, hv, encodeTriple, BitVec.toNat_ofNat, Nat.mod_eq_of_lt hfits]

/-- The cell at an index of an empty ROM after an import: the record's word, or 0 past the last record. -/
theorem read_storeRecords_nil (rs : List Record) (a : Word) :
    Memory.read (storeRecords 0 rs []) a = (rs[a.toNat]?.map Record.word).getD 0#32 := by
  rw [Memory.read, storeRecords_get]
  by_cases h : a.toNat < rs.length
  · simp [h]
  · simp [h, Memory.unlisted]

/-- Settles O57: the image parses to its records, and each record's cell holds the formula of its bytes. -/
theorem importStoresEveryRecord : Obligations.ImportStoresEveryRecord := by
  intro s rest records hstopped hblank hrom hlen hmoves
  have hstep := step_of_move hstopped hmoves
  rw [State.hostMove, importCode_of_ok (s := { s with hostMoves := rest }) hblank (parseImage_of_records hlen)] at hstep
  refine ⟨_, hstep, rfl, fun a => ?_⟩
  simp only [hrom, read_storeRecords_nil, List.getElem?_map]
  cases records[a.toNat]? with
  | none => rfl
  | some b => exact word_ofBytes_toNat b.1 b.2.1 b.2.2.1 b.2.2.2

theorem parseImage_of_no_nul {image : List Byte} (h : 0#8 ∉ image) : parseImage image = .error .missingNul := by
  rw [parseImage, splitAtNul_none h]

theorem parseImage_of_bad_body {tag body : List Byte} (htag : 0#8 ∉ tag)
    (hbad : tag ≠ imageTag ∨ body.length % 4 ≠ 0 ∨ 65536 < body.length / 4) :
    ∃ e, parseImage (tag ++ 0#8 :: body) = .error e := by
  simp only [parseImage, splitAtNul_append body htag]
  by_cases hqt : tag = imageTag
  · rw [if_pos hqt]
    have hlength := parseRecords_length body.length body le_rfl
    cases hparse : parseRecords body with
    | none => exact ⟨_, rfl⟩
    | some rs =>
      rw [hparse] at hlength
      have hmany : ¬ rs.length ≤ Config.spaceCells := by
        rcases hbad with h | h | h
        · exact absurd hqt h
        · omega
        · simp only [Config.spaceCells]
          omega
      exact ⟨_, if_neg hmany⟩
  · exact ⟨_, if_neg hqt⟩

/-- Settles O58: each of the four faults makes the parse fail, and an import out of its turn does not look at the image. -/
theorem badImagesAreLoadErrors : Obligations.BadImagesAreLoadErrors := by
  intro s rest image hstopped hmoves
  rw [step_of_move hstopped hmoves, State.hostMove]
  refine ⟨fun hblank hbad => ?_, fun hstatus => ?_⟩
  · obtain ⟨e, hparse⟩ : ∃ e, parseImage image = .error e := by
      rcases hbad with hnul | ⟨tag, body, htag, rfl, hbody⟩
      · exact ⟨_, parseImage_of_no_nul hnul⟩
      · exact parseImage_of_bad_body htag hbody
    rw [importCode_of_error (s := { s with hostMoves := rest }) hblank hparse]
  · rw [importCode_of_not_blank (s := { s with hostMoves := rest }) hstatus]

/-! ## The dump -/

theorem hostDump_running {s : State} (h : s.running = true) : hostDump s = none := by
  simp [hostDump, betweenRuns, h]

/-- Settles O60: each sequence is the snapshot of its memory. -/
theorem dumpShowsEveryCell : Obligations.DumpShowsEveryCell := by
  refine fun s => ⟨hostDump_running, fun hstopped => ⟨_, hostDump_stopped hstopped, ?_⟩⟩
  simp only [Memory.snapshot_length, Memory.snapshot_getElem, Config.spaceCells, and_self, implies_true]

end Sys2Proof.Proofs
end
